-- ==== Sys2Proof/Word.lean ====
section
/-! DEFINITION. The words the manual treats as bits: bytes, belt counts, time-base values, tags, and the raw converter results. -/

namespace Sys2Proof

/-- One byte of the service port, the option store or a line bus frame. -/
abbrev Byte := BitVec 8

/-- A belt count: a 24-bit wrapping count of belt steps (R3). -/
abbrev Count := BitVec 24

/-- A value of the free-running 1 µs time base of 32 bits (R7). -/
abbrev TimeBase := BitVec 32

/-- The 12-bit identifier of a piece (R41). -/
abbrev Tag := BitVec 12

/-- A converter result, two's complement, −2,048..2,047 (R16). -/
abbrev Raw := BitVec 12

/-- A set of lanes: lane n is bit n (section 11.7, granted lanes). -/
abbrev LaneSet := BitVec 32

/-- A set of piece classes: class code k is bit k (section 11.7, masks). -/
abbrev ClassMask := BitVec 6

end Sys2Proof
end

