-- ==== Sys2Proof/Syntax.lean ====
section
/-! DEFINITION. The commands of the K34: one constructor of Instr for each row of spec/opcode_table.json, and the names its operands use. -/

namespace Sys2Proof

/-- A level of the line bus (R126): a 0 is dominant, a 1 is recessive. -/
inductive Level where
  | dominant
  | recessive
  deriving DecidableEq, Repr

/-- A stretch of time before a command, with the level LB_RX has throughout it. DESIGN CHOICE, log 2. -/
structure Run where
  level : Level
  us    : Nat
  deriving DecidableEq, Repr

/-- The time that passes before a command, as runs of the LB_RX level, oldest first (log 2). -/
abbrev Lapse := List Run

/-- A transaction of the service port that carries a command (R172): the time before SEL_N rises, for how many
of the last µs SEL_N has been low, and the whole argument bytes received after the command code. -/
structure Transaction where
  lapse    : Lapse
  selected : Nat
  args     : List Byte
  deriving DecidableEq, Repr

/-- The raw pair of one lane (R16): I on the first converter, Q on the second. -/
structure RawPair where
  i : Raw
  q : Raw
  deriving DecidableEq, Repr

/-- One byte read from the line (R127, R128): the sample of the byte before, counted from that byte's start edge, at
which this byte's start edge is seen (not read for the first byte of a frame), and for each of its ten bits the
samples 16j + 7, 16j + 8, 16j + 9 (bit k of a triple is the k-th of them; 1 is recessive). Log 7. -/
structure LineByte where
  edge : Nat
  bits : Vector (BitVec 3) 10
  deriving DecidableEq, Repr

/-- The two gate feedback inputs (R112). -/
inductive GateSwitch where
  | rest
  | div
  deriving DecidableEq, Repr

/-- The four sources of track table requests, in the order in which the arbiter takes them (R51). -/
inductive Claimant where
  | report
  | localPiece
  | received
  | deadline
  deriving DecidableEq, Repr

/-- The pin levels sampled at the end of a reset (R15, R125, R159, R182): true is high. -/
structure ResetPins where
  station   : Fin 16
  setupHigh : Bool
  encA      : Bool
  encB      : Bool
  swRest    : Bool
  swDiv     : Bool
  deriving DecidableEq, Repr

/-- What comes before an encoder edge: the time, and the claimant, if any, whose request has made the readings of its decision
when the edge is taken and is still in flight after it (R75, R86, log 29). -/
structure EdgeLapse where
  lapse   : Lapse
  between : Option Claimant
  deriving DecidableEq, Repr

/-- What comes before a row record is taken: the time; and how many offers of the row's closed pieces are left to a later
ROW_RECORD (R45, log 28). -/
structure RowLapse where
  lapse : Lapse
  left  : Nat
  deriving DecidableEq, Repr

/-- The commands of the block: one constructor per row of spec/opcode_table.json. -/
inductive Instr where
  /-- ENCODER_EDGE (R1): the filters have accepted the levels a of ENC_A and b of ENC_B. -/
  | encoderEdge (l : EdgeLapse) (a b : Bool)
  /-- STEP_SILENCE_EXPIRY (R4). -/
  | stepSilenceExpiry (l : Lapse)
  /-- SWEEP_COMPLETE (R19): the 32 raw pairs in lane order and the 40 curtain bits, clock k + 1 in bit k. -/
  | sweepComplete (l : Lapse) (raw : Vector RawPair 32) (curtain : BitVec 40)
  /-- AUXILIARY_TICK (R25). -/
  | auxiliaryTick (l : Lapse)
  /-- AUXILIARY_CONVERSION_COMPLETE (R25): the result of the first converter. -/
  | auxiliaryConversionComplete (l : Lapse) (result : Raw)
  /-- SAMPLE_COMPLETE (R29): the results of the two converters. -/
  | sampleComplete (l : Lapse) (result : RawPair)
  /-- ROW_RECORD (R33, R45). -/
  | rowRecord (l : RowLapse)
  /-- OPENED (R52). -/
  | opened (l : Lapse)
  /-- SETTLED (R52). -/
  | settled (l : Lapse)
  /-- LOCAL_PIECE (R54). -/
  | localPiece (l : Lapse)
  /-- RECEIVE_RECORD (R57). -/
  | receiveRecord (l : Lapse)
  /-- DEADLINE_REQUEST (R62). -/
  | deadlineRequest (l : Lapse)
  /-- MAX_ON_TRIP (R103) of one lane. -/
  | maxOnTrip (l : Lapse) (lane : Fin 32)
  /-- COOLING_END (R104) of one lane. -/
  | coolingEnd (l : Lapse) (lane : Fin 32)
  /-- TEST_LANE (R106): the lane is the first argument byte. -/
  | testLane (t : Transaction)
  /-- TEST_LANE_END (R107) of one lane. -/
  | testLaneEnd (l : Lapse) (lane : Fin 32)
  /-- SWITCH_EVENT (R115): a feedback filter has accepted a level (true is high, open). -/
  | switchEvent (l : Lapse) (sw : GateSwitch) (high : Bool)
  /-- TRAVEL_TIMEOUT (R116). -/
  | travelTimeout (l : Lapse)
  /-- BUS_FREE (R131). -/
  | busFree (l : Lapse)
  /-- ARBITRATION_LOST (R133) at data bit k of ARB, k = 0 the first sent. -/
  | arbitrationLost (l : Lapse) (k : Fin 8)
  /-- LATCH_COUNT (R134). -/
  | latchCount (l : Lapse)
  /-- BIT_ERROR (R137): the bit of the frame, counted from 0 for the ARB start bit, that reads other than it was sent. -/
  | bitError (l : Lapse) (bit : Nat)
  /-- BREAK_END (R137). -/
  | breakEnd (l : Lapse)
  /-- TRANSMIT_COMPLETION (R138). -/
  | transmitCompletion (l : Lapse)
  /-- LINE_FAULT (R139). -/
  | lineFault (l : Lapse)
  /-- LINE_FAULT_END (R139). -/
  | lineFaultEnd (l : Lapse)
  /-- FRAME_DISCARD (R135): what the receiver has read of the frame. -/
  | frameDiscard (l : Lapse) (rx : List LineByte)
  /-- VALID_FRAME (R136): what the receiver has read, the whole frame. -/
  | validFrame (l : Lapse) (rx : List LineByte)
  /-- JOINING_TIMER_EXPIRY (R161). -/
  | joiningTimerExpiry (l : Lapse)
  /-- HELLO_TIMER_EXPIRY (R165). -/
  | helloTimerExpiry (l : Lapse)
  /-- QUIET (R168) of one roster slot. -/
  | quiet (l : Lapse) (slot : Fin 16)
  /-- ABSENT (R168) of one roster slot. -/
  | absent (l : Lapse) (slot : Fin 16)
  /-- READ_STATUS (R176). -/
  | readStatus (t : Transaction)
  /-- READ_CAUSE (R181). -/
  | readCause (t : Transaction)
  /-- READ_ROSTER (R177): the group is the first argument byte. -/
  | readRoster (t : Transaction)
  /-- READ_ENTRY (R177): slot and part are the first two argument bytes; inFlight names the claimant whose request is in
  flight when the command is taken (log 6). -/
  | readEntry (t : Transaction) (inFlight : Option Claimant)
  /-- READ_ENTRY_DEFERRED (R177). -/
  | readEntryDeferred (l : Lapse)
  /-- READ_COUNTERS (R178): the page is the first argument byte. -/
  | readCounters (t : Transaction)
  /-- READ_AND_CLEAR_COUNTERS (R178): the page is the first argument byte. -/
  | readAndClearCounters (t : Transaction)
  /-- READ_OPTIONS (R177). -/
  | readOptions (t : Transaction)
  /-- WRITE_OPTIONS (R180): the arguments are bytes 0..46 of the block. -/
  | writeOptions (t : Transaction)
  /-- OPTION_WRITE_COMPLETED (R180). -/
  | optionWriteCompleted (l : Lapse)
  /-- START (R160). -/
  | start (t : Transaction)
  /-- PAUSE (R162). -/
  | pause (t : Transaction)
  /-- RESUME (R162). -/
  | resume (t : Transaction)
  /-- RESET (R181). -/
  | reset (t : Transaction)
  /-- SAMPLE (R29): the channel is the first argument byte. -/
  | sample (t : Transaction)
  /-- UNKNOWN_COMMAND_CODE (R174): the command code. -/
  | unknownCommandCode (t : Transaction) (code : Byte)
  /-- POWER_ON (R181). -/
  | powerOn (l : Lapse)
  /-- CORE_SUPPLY_DROP (R181). -/
  | coreSupplyDrop (l : Lapse)
  /-- RESET_PIN (R181). -/
  | resetPin (l : Lapse)
  /-- RESET_END (R183): the levels sampled. -/
  | resetEnd (l : Lapse) (pins : ResetPins)
  /-- START_EDGE (R131): samples 0..9 from the edge on, sample k in bit k, 1 recessive (R127). -/
  | startEdge (l : Lapse) (samples : BitVec 10)
  /-- SUPPLY_RISE (R182). -/
  | supplyRise (l : Lapse)
  /-- RESET_PIN_HIGH (R182). -/
  | resetPinHigh (l : Lapse)
  deriving DecidableEq, Repr

end Sys2Proof
end

