-- ==== Sys2Proof/Decode.lean ====
section
/-! DEFINITION. The command a word spells: no row of spec/opcode_table.json gives bits, so none does. -/

namespace Sys2Proof

/-- The command that a word spells by the table's bits (spec/opcode_table.json: every row lists no field). -/
def decodeTableWord (_nbits _w : Nat) : Option Instr := none

end Sys2Proof
end

