-- ==== Sys2Proof/Config.lean ====
section
/-! DEFINITION. The free values: what the manual leaves open and no proof may see. -/

namespace Sys2Proof

/-- How many bytes of the new block, in order from byte 0, an option write has written when a reset abandons it (R180:
"The bytes written before the interruption hold their new values and the rest hold their old ones"). The manual states
no pace of the write, so the number is free: the value of the k-th draw. Log 11. -/
opaque Config.bytesWritten : Nat → Nat

end Sys2Proof
end

