-- ==== Sys2Proof/Machine/State.lean ====
section
/-! DEFINITION. The state of the K34 as plain data: every register, queue, list, timer, flag, counter and mode the manual gives its blocks, and the values after reset. -/

namespace Sys2Proof.Machine

/-! ### Names of chapter 9, section 9.2, and of the block states -/

/-- The six piece classes (section 9.2). -/
inductive PieceClass where
  | ferrous | steelLow | nonferrous | board | inert | unknown
  deriving DecidableEq, Repr

/-- The seven verdicts (section 9.2). -/
inductive Verdict where
  | passed | ejected | removed | trimmed | denied | late | carried
  deriving DecidableEq, Repr

/-- The causes of a DENIED verdict (section 4 of 00_scope, R73). -/
inductive DenialCause where
  | budget | blocked | queue | unsettled
  deriving DecidableEq, Repr

/-- Outlet kinds NONE, LANES, GATE (section 9.2). -/
inductive OutletKind where
  | nothing | lanes | gate
  deriving DecidableEq, Repr

/-- Station states (section 10.1). -/
inductive StationState where
  | setup | joining | running | paused
  deriving DecidableEq, Repr

/-- Belt states (section 1.3). -/
inductive BeltState where
  | stopped | unsettled | moving | reversing
  deriving DecidableEq, Repr

/-- Outlet states NONE, UNAVAILABLE, LIMITED, AVAILABLE (R108). -/
inductive OutletState where
  | nothing | unavailable | limited | available
  deriving DecidableEq, Repr

/-- Modes (R169). -/
inductive Mode where
  | assisted | alone
  deriving DecidableEq, Repr

/-- Supply bands (R26). -/
inductive Band where
  | fault | low | normal
  deriving DecidableEq, Repr

/-- Gate states (R112). -/
inductive GateState where
  | rest | movingOut | divert | movingBack | fault
  deriving DecidableEq, Repr

/-- Lane outlet states CLOSED, OPEN, COOLING (R93). -/
inductive LaneState where
  | closed | opened | cooling
  deriving DecidableEq, Repr

/-- Line link states (section 8.4). -/
inductive LinkState where
  | idle | arbitrating | sending | receiving | breaking | lineFault
  deriving DecidableEq, Repr

/-- Roster slot states (R166). -/
inductive SlotState where
  | unknown | present | quiet | absent | mismatch | self
  deriving DecidableEq, Repr

/-- States of a track table entry in use (R48); a FREE slot holds no entry. -/
inductive EntryState where
  | expected | due | acting | passing
  deriving DecidableEq, Repr

/-- The two auxiliary channels (R25). -/
inductive AuxChannel where
  | supply | coil
  deriving DecidableEq, Repr

/-- The channel of a SAMPLE (R29). -/
inductive Channel where
  | lane (n : Fin 32)
  | aux (c : AuxChannel)
  deriving DecidableEq, Repr

/-- A conversion in progress (R16). A SAMPLE whose response a later command has replaced runs on with live false (R29). -/
inductive Job where
  | sweep
  | sample (c : Channel) (live : Bool)
  | aux (c : AuxChannel)
  deriving DecidableEq, Repr

/-- Receiver errors (R135). -/
inductive RxError where
  | framing | gap | unknownKind | length | crc
  deriving DecidableEq, Repr

/-- Response statuses (section 11.7). -/
inductive Status where
  | ok | refusedState | refusedArg | busy | notReady
  deriving DecidableEq, Repr

/-- The 78 counters (R178, section 11.7 counter pages). -/
inductive Counter where
  | encoderFault | stops | rowOverrun | pieceDropped | tableFull | lateReport | passedBy | expectedUnseen
  | maybeUnseen | escapeListOverflow | deniedBudget | deniedBlocked | deniedQueue | deniedUnsettled
  | maxOnTrip | bandDropClose
  | gateFault | holdThrough | rxFraming | rxGap | rxUnknownKind | rxLength | rxCrc | txBit | txDropped
  | lineFaults | txStale | noticeMalformed | noticeIgnored | rxQueueFull
  | escapeReported (c : PieceClass)
  | verdict (v : Verdict) (c : PieceClass)
  deriving DecidableEq, Repr

/-! ### Options (section 11.7) -/

/-- The option fields the blocks have taken at the last reset (R179). -/
structure Options where
  s          : Nat
  kind       : OutletKind
  scan       : Bool
  o          : Nat
  d          : Nat
  pre        : Nat
  post       : Nat
  wMax       : Nat
  laneOffset : Int
  laneMargin : Nat
  peerWiden  : Nat
  r          : Nat
  p          : Nat
  stepCode   : Nat
  eject      : ClassMask
  fallback   : ClassMask
  passive    : ClassMask
  cover      : Option (Fin 16)
  areaMin    : Nat
  areaMax    : Nat
  tMetal     : Nat
  tCell      : Nat
  coilFloor  : Nat
  faultFall  : Nat
  faultRise  : Nat
  lowFall    : Nat
  lowRise    : Nat
  bLow       : Nat
  bNormal    : Nat
  tOnMax     : Nat
  listen     : Nat
  hb         : Nat
  hd         : Nat
  rate       : Nat
  deriving DecidableEq, Repr

/-- The fallbacks of R179 for an invalid block; a field for which R179 names none is 0. DESIGN CHOICE, log 10. -/
def Options.invalid : Options where
  s := 0
  kind := .nothing
  scan := false
  o := 0
  d := 0
  pre := 0
  post := 0
  wMax := 0
  laneOffset := 0
  laneMargin := 0
  peerWiden := 0
  r := 1
  p := 1
  stepCode := 0
  eject := 0
  fallback := 0
  passive := 0
  cover := none
  areaMin := 0
  areaMax := 0
  tMetal := 0
  tCell := 0
  coilFloor := 0
  faultFall := 0
  faultRise := 0
  lowFall := 0
  lowRise := 0
  bLow := 0
  bNormal := 0
  tOnMax := 0
  listen := 0
  hb := 0
  hd := 0
  rate := 0

/-! ### Belt tracker (chapter 1) -/

/-- The belt tracker (R15). -/
structure Belt where
  count   : Count
  sub     : Nat
  encA    : Bool
  encB    : Bool
  state   : BeltState
  silence : Option Nat
  ring    : List TimeBase
  origin  : Option TimeBase
  t64     : Nat
  lastRow : Option Count
  deriving DecidableEq, Repr

/-! ### Scan unit (chapter 2) -/

/-- A baseline pair (R24). -/
structure Baseline where
  i0 : Int
  q0 : Int
  deriving DecidableEq, Repr

/-- One cell of a row (R21, R22). -/
structure Cell where
  ic       : Int
  qc       : Int
  blocked  : Bool
  occupied : Bool
  deriving DecidableEq, Repr

/-- A row record (R22). -/
structure RowRecord where
  row          : Count
  cells        : Vector Cell 32
  repeated     : Bool
  coilWeak     : Bool
  curtainFault : Bool
  deriving DecidableEq, Repr

/-- The sweep in flight (R18, R23): its row count, whether the arbiter has taken it, and its overrun list. -/
structure Sweep where
  row     : Count
  taken   : Bool
  overrun : List Count
  deriving DecidableEq, Repr

/-- The scan unit (R32). -/
structure Scan where
  base         : Vector Baseline 32
  sweep        : Option Sweep
  job          : Option Job
  jobTime      : Nat
  sampleWait   : Option Channel
  auxWait      : Option AuxChannel
  lastSwept    : Option RowRecord
  curtainFault : Bool
  nextAux      : AuxChannel
  auxTimer     : Nat
  band         : Band
  candidate    : Option Band
  bandRun      : Nat
  coilWeak     : Bool
  coilRun      : Nat
  deriving DecidableEq, Repr

/-! ### Piece former (chapter 3) -/

/-- A run of occupied lanes lo..hi (R34). -/
structure LaneRun where
  lo : Nat
  hi : Nat
  deriving DecidableEq, Repr

/-- The four flags a piece record and a PIECE notice carry (R44, section 9.2). -/
structure PieceFlags where
  long      : Bool
  continued : Bool
  edge      : Bool
  coilOnly  : Bool
  deriving DecidableEq, Repr

/-- An open piece with its running state (R38). -/
structure OpenPiece where
  tag         : Tag
  lead        : Count
  lastRow     : Count
  n           : Nat
  nc          : Nat
  sumI        : Int
  sumQ        : Int
  sumLane     : Nat
  first       : Nat
  last        : Nat
  rows        : Nat
  repeated    : Nat
  coilMark    : Bool
  curtainMark : Bool
  edge        : Bool
  continued   : Bool
  runs        : List LaneRun
  deriving DecidableEq, Repr

/-- A piece record (R44). -/
structure PieceRecord where
  tag      : Tag
  lead     : Count
  trail    : Count
  first    : Nat
  last     : Nat
  centroid : Nat
  n        : Nat
  nc       : Nat
  sumI     : Int
  sumQ     : Int
  cls      : PieceClass
  flags    : PieceFlags
  deriving DecidableEq, Repr

/-- The piece former (R47). pieces stand in the order in which they were opened (R36). rows holds the delivered row
records not yet taken, in order of delivery (R33, log 18). offers holds the records of the row last taken that have not
been offered yet, in the order of their offers (R39, R45; MODEL, log 28). -/
structure Former where
  pieces   : List OpenPiece
  longRuns : List (List LaneRun)
  tag      : Tag
  queue    : List PieceRecord
  rows     : List RowRecord
  offers   : List PieceRecord
  deriving DecidableEq, Repr

/-! ### Track table (chapter 4) -/

/-- The flags of a window (R92). -/
structure WindowFlags where
  lateOpen     : Bool
  longCut      : Bool
  lanesTrimmed : Bool
  cut          : Bool
  deriving DecidableEq, Repr

/-- A peer report record of an entry (R50). -/
structure PeerReport where
  station  : Fin 16
  s        : Nat
  tag      : Tag
  cls      : PieceClass
  verdict  : Verdict
  area     : Nat
  flags    : PieceFlags
  lead     : Count
  length   : Nat
  first    : Nat
  last     : Nat
  centroid : Nat
  deriving DecidableEq, Repr

/-- The local part of an entry (R49). -/
structure LocalPart where
  cls   : PieceClass
  sumI  : Int
  sumQ  : Int
  nc    : Nat
  flags : PieceFlags
  deriving DecidableEq, Repr

/-- The expectation of an entry (R49). -/
structure Expectation where
  e     : Count
  h     : Nat
  perhaps : Bool
  deriving DecidableEq, Repr

/-- The decision fields of an entry (R49, R88): points are P_open and P_close, present for a target. -/
structure Decision where
  cls     : PieceClass
  target  : Bool
  points  : Option (Count × Count)
  granted : LaneSet
  flags   : WindowFlags
  deriving DecidableEq, Repr

/-- An entry in use (R49). geomFlags are the flags of the report whose geometry the entry holds (R64, R67; log 20). The
verdict and the denial cause live only within the settling request (R66). -/
structure Entry where
  state        : EntryState
  tag          : Option Tag
  lead         : Count
  trail        : Count
  first        : Nat
  last         : Nat
  centroid     : Nat
  area         : Nat
  own          : Option LocalPart
  reports      : List PeerReport
  escapeSource : Option (Fin 16 × Tag)
  expectation  : Option Expectation
  deadline     : Option Count
  decision     : Option Decision
  geomFlags    : PieceFlags
  deriving DecidableEq, Repr

/-- A record of the escape watch list (R69). -/
structure EscapeRecord where
  station  : Fin 16
  s        : Nat
  tag      : Tag
  cls      : PieceClass
  verdict  : Verdict
  area     : Nat
  flags    : PieceFlags
  first    : Nat
  last     : Nat
  centroid : Nat
  e        : Count
  h        : Nat
  length   : Nat
  expiry   : Count
  deriving DecidableEq, Repr

/-- A receive record (R156). -/
structure ReceiveRecord where
  station  : Fin 16
  s        : Nat
  tag      : Tag
  flags    : PieceFlags
  linepos  : Count
  length   : Nat
  first    : Nat
  last     : Nat
  centroid : Nat
  area     : Nat
  cls      : PieceClass
  verdict  : Verdict
  latch    : Count
  deriving DecidableEq, Repr

/-- A report on a window (R52). -/
inductive OutletReport where
  | opened (slot : Fin 128) (granted : LaneSet) (flags : WindowFlags)
  | settled (slot : Fin 128) (verdict : Verdict) (cause : Option DenialCause) (flags : WindowFlags)
  deriving DecidableEq, Repr

/-- A request taken by the track table (R51), with the record it took. -/
inductive TableRequest where
  | report (r : OutletReport)
  | localPiece (p : PieceRecord)
  | received (r : ReceiveRecord)
  | deadline
  deriving DecidableEq, Repr

/-- What a decision call reads once, at its start: the mode, the belt count and state, the lead, and whether the open queue
has room (R75). -/
structure Reading where
  mode  : Mode
  count : Count
  belt  : BeltState
  lead  : Nat
  room  : Bool
  deriving DecidableEq, Repr

/-- A request in flight (R51), with the readings its decision has made, if it has made them before an event that the table's
own command follows (R86, log 29). -/
structure Flight where
  request : TableRequest
  reading : Option Reading
  deriving DecidableEq, Repr

/-- A mark for each claimant (R51). -/
structure Claims where
  report     : Bool
  localPiece : Bool
  received   : Bool
  deadline   : Bool
  deriving DecidableEq, Repr

/-- The track table (R74). tied marks the claimants that became pending at the same moment with the table free (R51;
MODEL, log 5). -/
structure Table where
  slots    : Vector (Option Entry) 128
  escapes  : List EscapeRecord
  reports  : List OutletReport
  inFlight : Option Flight
  tied     : Claims
  deriving DecidableEq, Repr

/-! ### Outlet scheduler (chapter 6) and gate unit (chapter 7) -/

/-- The lane span of a window (R84). -/
structure Span where
  first    : Nat
  last     : Nat
  centroid : Nat
  deriving DecidableEq, Repr

/-- A window (R92); the span is present on a LANES station. -/
structure Window where
  slot   : Fin 128
  pOpen  : Count
  pClose : Count
  flags  : WindowFlags
  span   : Option Span
  grant  : LaneSet
  deriving DecidableEq, Repr

/-- A lane outlet's record (R93); test is the running time, in µs, of the test lane on it (R107). A lane that is not OPEN
holds no opened-at time and one that is not COOLING no cool-until time (DESIGN CHOICE, log 26). -/
structure Lane where
  state     : LaneState
  holders   : Nat
  openedAt  : Option TimeBase
  coolUntil : Option TimeBase
  test      : Option Nat
  deriving DecidableEq, Repr

/-- The outlet scheduler (R111). -/
structure Outlets where
  openQ  : List Window
  closeQ : List Window
  lanes  : Vector Lane 32
  deriving DecidableEq, Repr

/-- A closed divert interval (R113). -/
structure Interval where
  first : Count
  last  : Count
  deriving DecidableEq, Repr

/-- The gate unit (R112, R125); swRest and swDiv are the accepted levels, true high (open). -/
structure Gate where
  state   : GateState
  holders : Nat
  travel  : Option Nat
  current : Option Count
  history : List Interval
  swRest  : Bool
  swDiv   : Bool
  deriving DecidableEq, Repr

/-! ### Line link (chapter 8) and notices (chapter 9) -/

/-- The fields of a HELLO (section 9.2, R153). -/
structure HelloFields where
  s       : Nat
  o       : Nat
  kind    : OutletKind
  scan    : Bool
  step    : Nat
  station : StationState
  belt    : BeltState
  outlet  : OutletState
  mode    : Mode
  deriving DecidableEq, Repr

/-- A built PIECE notice (R147): every field but the line position, and the lead count in its place. -/
structure PieceNotice where
  tag      : Tag
  flags    : PieceFlags
  lead     : Count
  length   : Nat
  first    : Nat
  last     : Nat
  centroid : Nat
  area     : Nat
  cls      : PieceClass
  verdict  : Verdict
  deriving DecidableEq, Repr

/-- A built ESCAPE notice (R151). -/
structure EscapeNotice where
  target : Fin 16
  tag    : Tag
  cls    : PieceClass
  deriving DecidableEq, Repr

/-- The content of a notice. -/
inductive Body where
  | hello (h : HelloFields)
  | piece (p : PieceNotice)
  | escape (e : EscapeNotice)
  deriving DecidableEq, Repr

/-- A notice of the transmit queue with its ARB value (R140); attempted marks the notice of the attempt in progress. -/
structure Notice where
  arb       : Nat
  body      : Body
  attempted : Bool
  deriving DecidableEq, Repr

/-- The frame of the attempt in progress (R132): its check is computed as it is sent (R130). -/
structure TxFrame where
  arb     : Byte
  kindLen : Byte
  payload : List Byte
  deriving DecidableEq, Repr

/-- The line link (R144). arbRead holds the ARB bits sampled before an arbitration was lost, the first sent first (R133). ahead
counts the samples already read for a time that a later lapse holds (MODEL, log 22), and arbTime is the running time of the
arbitration (MODEL, log 8). -/
structure Link where
  state     : LinkState
  rx        : Level
  idle      : Nat
  dominant  : Nat
  ahead     : Nat
  queue     : List Notice
  waiting   : Option HelloFields
  frame     : Option TxFrame
  arbTime   : Option Nat
  arbRead   : List Bool
  latch     : Option Count
  breakTime : Option Nat
  deriving DecidableEq, Repr

/-! ### Station and roster (chapter 10) -/

/-- A roster slot (R166, R168). -/
structure RosterSlot where
  state   : SlotState
  fields  : Option HelloFields
  silence : Option Nat
  deriving DecidableEq, Repr

/-- The station block (R171). -/
structure Station where
  number  : Fin 16
  state   : StationState
  joining : Option Nat
  hello   : Option Nat
  mute    : Bool
  roster  : Vector RosterSlot 16
  mode    : Mode
  deriving DecidableEq, Repr

/-! ### Service port, option store and reset logic (chapter 11) -/

/-- A complete response (R173). -/
structure Response where
  status : Status
  data   : List Byte
  deriving DecidableEq, Repr

/-- The attention set (R175). -/
structure Attention where
  stateChange : Bool
  gateFault   : Bool
  mute        : Bool
  lineFault   : Bool
  bandFault   : Bool
  deriving DecidableEq, Repr

/-- The service port (R183): no response while the buffer is not complete. -/
structure Port where
  response  : Option Response
  deferred  : Option (Fin 128 × Nat)
  attention : Attention
  deriving DecidableEq, Repr

/-- The option store (R179): writing holds bytes 0..46 of the write in progress (R180). -/
structure Store where
  bytes   : Vector Byte 48
  mark    : Bool
  writing : Option (Vector Byte 47)
  deriving DecidableEq, Repr

/-- The reset cause flags (R181). -/
structure Causes where
  power  : Bool
  supply : Bool
  pin    : Bool
  soft   : Bool
  config : Bool
  deriving DecidableEq, Repr

/-- The reset logic (R182): start is the running time of the start interval; sinceEnd, MODEL, the time since the last
reset ended (R172, log 14). -/
structure Rst where
  causes    : Causes
  asserted  : Bool
  supplyLow : Bool
  pinLow    : Bool
  start     : Nat
  sinceEnd  : Nat
  deriving DecidableEq, Repr

/-! ### The machine -/

/-- The whole state of one K34: the commands that wait (log 1) and the state of every block. -/
structure State where
  pending  : List Instr
  timeBase : TimeBase
  opts     : Options
  valid    : Bool
  belt     : Belt
  scan     : Scan
  former   : Former
  table    : Table
  outlets  : Outlets
  gate     : Gate
  link     : Link
  rxQueue  : List ReceiveRecord
  station  : Station
  port     : Port
  store    : Store
  rst      : Rst
  counters : Vector (BitVec 32) 78
  draws    : Nat
  deriving DecidableEq, Repr

/-- The reasons a command may stop the block: none. The manual names no event that stops the part; its faults are
states, flags and counters (INVENTORY.md, Faults). -/
inductive Fault where
  deriving DecidableEq, Repr

/-- The reasons for which a command has no meaning. -/
inductive Refusal where
  /-- Raised by an arm of exec for a command that has no meaning yet; no arm raises it. Safe: the run ends. -/
  | notModelled (mnemonic : String)
  deriving DecidableEq, Repr

/-! ### Values after reset -/

/-- No flag of a piece. -/
def PieceFlags.clear : PieceFlags := ⟨false, false, false, false⟩

/-- No flag of a window. -/
def WindowFlags.clear : WindowFlags := ⟨false, false, false, false⟩

/-- No claimant marked. -/
def Claims.none : Claims := ⟨false, false, false, false⟩

/-- The empty attention set. -/
def Attention.empty : Attention := ⟨false, false, false, false, false⟩

/-- A lane outlet after reset (R111). -/
def Lane.afterReset : Lane := ⟨.closed, 0, none, none, none⟩

/-- The belt tracker after a reset that ends with the encoder levels a and b (R15). -/
def Belt.afterReset (a b : Bool) : Belt where
  count := 0
  sub := 0
  encA := a
  encB := b
  state := .stopped
  silence := none
  ring := []
  origin := none
  t64 := 4194303
  lastRow := none

/-- The scan unit after reset (R32). -/
def Scan.afterReset : Scan where
  base := Vector.replicate 32 ⟨0, 0⟩
  sweep := none
  job := none
  jobTime := 0
  sampleWait := none
  auxWait := none
  lastSwept := none
  curtainFault := false
  nextAux := .supply
  auxTimer := 0
  band := .fault
  candidate := none
  bandRun := 0
  coilWeak := false
  coilRun := 0

/-- The piece former after reset (R47). -/
def Former.afterReset : Former := ⟨[], [], 0, [], [], []⟩

/-- The track table after reset (R74). -/
def Table.afterReset : Table := ⟨Vector.replicate 128 none, [], [], none, .none⟩

/-- The outlet scheduler after reset (R111). -/
def Outlets.afterReset : Outlets := ⟨[], [], Vector.replicate 32 .afterReset⟩

/-- The gate unit after a reset that ends with the given switch levels on a station of the given kind (R125). -/
def Gate.afterReset (kind : OutletKind) (swRest swDiv : Bool) : Gate where
  state := if kind = .gate ∧ ¬(swRest = false ∧ swDiv = true) then .fault else .rest
  holders := 0
  travel := none
  current := none
  history := []
  swRest := swRest
  swDiv := swDiv

/-- The line link after reset (R144); the level of LB_RX is the model's, log 9. -/
def Link.afterReset : Link where
  state := .idle
  rx := .recessive
  idle := 0
  dominant := 0
  ahead := 0
  queue := []
  waiting := none
  frame := none
  arbTime := none
  arbRead := []
  latch := none
  breakTime := none

/-- The roster after reset: SELF for the station's own number, UNKNOWN otherwise (R166, R171). -/
def Station.rosterAfterReset (number : Fin 16) : Vector RosterSlot 16 :=
  Vector.ofFn fun n => ⟨if n = number then .self else .unknown, none, none⟩

/-- The station block after reset (R159, R171): first is its first state. -/
def Station.afterReset (number : Fin 16) (first : StationState) (cover : Option (Fin 16)) : Station where
  number := number
  state := first
  joining := if first = .joining then some 0 else none
  hello := none
  mute := false
  roster := rosterAfterReset number
  mode := if cover = none then .assisted else .alone

/-- The K34 at the end of a power-on reset of a part whose option store has never been written (R179, R183): the block is
invalid, so the station is in SETUP. The straps and input levels the manual leaves to the board are DESIGN CHOICES,
log 9. -/
def State.reset : State where
  pending := []
  timeBase := 0
  opts := .invalid
  valid := false
  belt := .afterReset false false
  scan := .afterReset
  former := .afterReset
  table := .afterReset
  outlets := .afterReset
  gate := .afterReset .nothing true true
  link := .afterReset
  rxQueue := []
  station := .afterReset 0 .setup none
  port := ⟨none, none, ⟨true, false, false, false, false⟩⟩
  store := ⟨Vector.replicate 48 0xFF, false, none⟩
  rst := ⟨⟨true, false, false, false, false⟩, false, false, false, 0, 0⟩
  counters := Vector.replicate 78 0
  draws := 0

end Sys2Proof.Machine
end

