-- ==== Sys2Proof/Machine/Ops.lean ====
section
/-! DEFINITION. Shared operations: belt counts and leads, time-base differences, counters, codes and bytes, class sets, orders. -/

namespace Sys2Proof.Machine

/-! ### Belt counts (R3) and leads (R9) -/

/-- The difference a − b of two counts, −8,388,608..8,388,607 (R3). -/
def diff (a b : Count) : Int := (a - b).toInt

/-- Count a reaches count b (R3). -/
def reaches (a b : Count) : Bool := decide (0 ≤ diff a b)

/-- Count a is before count b (R3). -/
def isBefore (a b : Count) : Bool := !reaches a b

/-- A count plus a signed number of steps (R3). -/
def shift (a : Count) (n : Int) : Count := a + BitVec.ofInt 24 n

/-- The lead for a delay d at a speed figure t64 (R9). -/
def lead (t64 d : Nat) : Nat := min 511 ((d * 64 + t64 / 2) / t64)

/-- The lead for the option D at the speed figure in force (R9): the outlet delay or the gate travel time. -/
def State.lead (s : State) : Nat := Machine.lead s.belt.t64 s.opts.d

/-- The value T64 carries when no speed is measured (R8). -/
def noSpeed : Nat := 4194303

/-- The µs from one time-base value to another, modulo 2^32 (R7). -/
def sinceTime (now earlier : TimeBase) : Nat := (now - earlier).toNat

/-! ### Codes (section 9.2, section 11.7) -/

/-- Class codes. -/
def PieceClass.code : PieceClass → Nat
  | .ferrous => 0 | .steelLow => 1 | .nonferrous => 2 | .board => 3 | .inert => 4 | .unknown => 5

/-- The class of a code, none above 5. -/
def PieceClass.ofCode : Nat → Option PieceClass
  | 0 => some .ferrous | 1 => some .steelLow | 2 => some .nonferrous | 3 => some .board | 4 => some .inert
  | 5 => some .unknown | _ => none

/-- Verdict codes. -/
def Verdict.code : Verdict → Nat
  | .passed => 0 | .ejected => 1 | .removed => 2 | .trimmed => 3 | .denied => 4 | .late => 5 | .carried => 6

/-- The verdict of a code, none above 6. -/
def Verdict.ofCode : Nat → Option Verdict
  | 0 => some .passed | 1 => some .ejected | 2 => some .removed | 3 => some .trimmed | 4 => some .denied
  | 5 => some .late | 6 => some .carried | _ => none

/-- Outlet kind codes. -/
def OutletKind.code : OutletKind → Nat
  | .nothing => 0 | .lanes => 1 | .gate => 2

/-- The outlet kind of a code, none above 2. -/
def OutletKind.ofCode : Nat → Option OutletKind
  | 0 => some .nothing | 1 => some .lanes | 2 => some .gate | _ => none

/-- Station state codes. -/
def StationState.code : StationState → Nat
  | .setup => 0 | .joining => 1 | .running => 2 | .paused => 3

/-- The station state of a two-bit code. -/
def StationState.ofCode : Nat → StationState
  | 0 => .setup | 1 => .joining | 2 => .running | _ => .paused

/-- Belt state codes. -/
def BeltState.code : BeltState → Nat
  | .stopped => 0 | .unsettled => 1 | .moving => 2 | .reversing => 3

/-- The belt state of a two-bit code. -/
def BeltState.ofCode : Nat → BeltState
  | 0 => .stopped | 1 => .unsettled | 2 => .moving | _ => .reversing

/-- Outlet state codes. -/
def OutletState.code : OutletState → Nat
  | .nothing => 0 | .unavailable => 1 | .limited => 2 | .available => 3

/-- The outlet state of a two-bit code. -/
def OutletState.ofCode : Nat → OutletState
  | 0 => .nothing | 1 => .unavailable | 2 => .limited | _ => .available

/-- Mode codes. -/
def Mode.code : Mode → Nat
  | .assisted => 0 | .alone => 1

/-- The mode of a one-bit code. -/
def Mode.ofCode : Nat → Mode
  | 0 => .assisted | _ => .alone

/-- Supply band codes (status record). -/
def Band.code : Band → Nat
  | .fault => 0 | .low => 1 | .normal => 2

/-- Gate state codes (status record). -/
def GateState.code : GateState → Nat
  | .rest => 0 | .movingOut => 1 | .divert => 2 | .movingBack => 3 | .fault => 4

/-- Roster slot state codes (READ ROSTER). -/
def SlotState.code : SlotState → Nat
  | .unknown => 0 | .present => 1 | .quiet => 2 | .absent => 3 | .mismatch => 4 | .self => 5

/-- Entry state codes (entry part 0); a FREE slot is 0. -/
def EntryState.code : EntryState → Nat
  | .expected => 1 | .due => 2 | .acting => 3 | .passing => 4

/-- Response status codes. -/
def Status.code : Status → Nat
  | .ok => 0 | .refusedState => 1 | .refusedArg => 2 | .busy => 3 | .notReady => 4

/-- A class is a member of a class set. -/
def ClassMask.has (m : ClassMask) (c : PieceClass) : Bool := m.getLsbD c.code

/-! ### Bytes -/

/-- The k low bytes of a number, most significant first. -/
def bytesOf : Nat → Nat → List Byte
  | 0, _ => []
  | k + 1, v => BitVec.ofNat 8 (v / 256 ^ k) :: bytesOf k v

/-- The number that bytes spell, most significant first. -/
def numOf (bs : List Byte) : Nat := bs.foldl (fun a b => a * 256 + b.toNat) 0

/-- One bit as a number. -/
def bit (b : Bool) : Nat := if b then 1 else 0

/-- A signed number in two's complement of k bytes, most significant first. -/
def signedBytes (k : Nat) (v : Int) : List Byte := bytesOf k (BitVec.ofInt (8 * k) v).toNat

/-! ### Counters (R178) -/

/-- The place of a counter in the order of the seven pages (section 11.7). -/
def Counter.index : Counter → Fin 78
  | .encoderFault => 0 | .stops => 1 | .rowOverrun => 2 | .pieceDropped => 3 | .tableFull => 4 | .lateReport => 5
  | .passedBy => 6 | .expectedUnseen => 7 | .maybeUnseen => 8 | .escapeListOverflow => 9 | .deniedBudget => 10
  | .deniedBlocked => 11 | .deniedQueue => 12 | .deniedUnsettled => 13 | .maxOnTrip => 14 | .bandDropClose => 15
  | .gateFault => 16 | .holdThrough => 17 | .rxFraming => 18 | .rxGap => 19 | .rxUnknownKind => 20 | .rxLength => 21
  | .rxCrc => 22 | .txBit => 23 | .txDropped => 24 | .lineFaults => 25 | .txStale => 26 | .noticeMalformed => 27
  | .noticeIgnored => 28 | .rxQueueFull => 29
  | .escapeReported .ferrous => 30 | .escapeReported .steelLow => 31 | .escapeReported .nonferrous => 32
  | .escapeReported .board => 33 | .escapeReported .inert => 34 | .escapeReported .unknown => 35
  | .verdict v c => Fin.ofNat 78 (36 + 6 * v.code + c.code)

/-- First counter and number of counters of a page (section 11.7). -/
def counterPage : Nat → Nat × Nat
  | 0 => (0, 16) | 1 => (16, 14) | 2 => (30, 6) | 3 => (36, 12) | 4 => (48, 12) | 5 => (60, 12) | _ => (72, 6)

/-- One more event, saturating at 2^32 − 1 (R178). -/
def saturatingInc (v : BitVec 32) : BitVec 32 := if v = BitVec.allOnes 32 then v else v + 1

/-- The value of a counter. -/
def State.counter (s : State) (c : Counter) : BitVec 32 := s.counters[c.index]

/-- A counter is increased by one (R178). -/
def State.bump (s : State) (c : Counter) : State :=
  { s with counters := s.counters.set c.index (saturatingInc s.counters[c.index]) }

/-- A counter is increased by one for each of n events. -/
def State.bumps (c : Counter) : Nat → State → State
  | 0, s => s
  | n + 1, s => State.bumps c n (s.bump c)

/-- The counter of a denial cause (R73). -/
def DenialCause.counter : DenialCause → Counter
  | .budget => .deniedBudget
  | .blocked => .deniedBlocked
  | .queue => .deniedQueue
  | .unsettled => .deniedUnsettled

/-! ### Orders and places in lists -/

/-- Places x behind every element that does not come after it, in a list kept in order: elements that tie keep the
order in which they joined (R69, R91, R140). -/
def insertBehind {α : Type} (after : α → α → Bool) (x : α) : List α → List α
  | [] => [x]
  | y :: ys => if after y x then x :: y :: ys else y :: insertBehind after x ys

/-- A list in the order of after, ties in their order in the list. -/
def sortStable {α : Type} (after : α → α → Bool) (xs : List α) : List α :=
  xs.foldl (fun acc x => insertBehind after x acc) []

/-- The element that nothing before it in the list matches and nothing in the list beats. -/
def pickBest {α : Type} (beats : α → α → Bool) : List α → Option α
  | [] => none
  | x :: xs =>
    match pickBest beats xs with
    | none => some x
    | some y => if beats y x then some y else some x

/-- The number clamped to lo..hi. -/
def clampInt (x lo hi : Int) : Int := max lo (min hi x)

/-! ### Lane sets -/

/-- A lane is a member of a lane set. -/
def LaneSet.has (g : LaneSet) (n : Fin 32) : Bool := g.getLsbD n.val

/-- A lane set with a lane. -/
def LaneSet.add (g : LaneSet) (n : Fin 32) : LaneSet := g ||| BitVec.twoPow 32 n.val

/-- A lane set without a lane. -/
def LaneSet.remove (g : LaneSet) (n : Fin 32) : LaneSet := g &&& ~~~(BitVec.twoPow 32 n.val)

/-! ### The table's slots -/

/-- The lowest-numbered FREE slot (R48). -/
def State.freeSlot (s : State) : Option (Fin 128) :=
  (List.finRange 128).find? fun i => s.table.slots[i].isNone

/-- A slot's content is replaced. -/
def State.setSlot (s : State) (i : Fin 128) (e : Option Entry) : State :=
  { s with table := { s.table with slots := s.table.slots.set i e } }

/-- The number of entries in use (R48). -/
def State.entriesInUse (s : State) : Nat :=
  (List.finRange 128).countP fun i => s.table.slots[i].isSome

/-- A report is issued on the report path (R52). The path holds 256 reports; the table's bounds keep it from filling. -/
def State.issue (s : State) (r : OutletReport) : State :=
  { s with table := { s.table with reports := s.table.reports ++ [r] } }

/-- The next tag is drawn (R41). -/
def State.drawTag (s : State) : State :=
  { s with former := { s.former with tag := s.former.tag + 1 } }

end Sys2Proof.Machine
end

