-- ==== Sys2Proof/Machine/Flags.lean ====
section
/-! DEFINITION. Flags: window flags and the verdict they give, piece flags, the attention set, the reset cause flags, and the bytes that carry them. -/

namespace Sys2Proof.Machine

/-- Any of the four window flags is set (R102). -/
def WindowFlags.any (f : WindowFlags) : Bool := f.lateOpen || f.longCut || f.lanesTrimmed || f.cut

/-- The verdict of a lane window at its close event (R102). -/
def WindowFlags.laneVerdict (f : WindowFlags) : Verdict := if f.any then .trimmed else .ejected

/-- Entry part 0, byte 45: LATE-OPEN 0, LONG-CUT 1, LANES-TRIMMED 2, CUT 3. -/
def WindowFlags.code (f : WindowFlags) : Nat :=
  bit f.lateOpen + 2 * bit f.longCut + 4 * bit f.lanesTrimmed + 8 * bit f.cut

/-- The four piece flags in bits 3..0 as in the PIECE payload: LONG 3, CONTINUED 2, EDGE 1, COIL-ONLY 0 (section 9.2). -/
def PieceFlags.code (f : PieceFlags) : Nat := 8 * bit f.long + 4 * bit f.continued + 2 * bit f.edge + bit f.coilOnly

/-- The piece flags of the low four bits of a byte (section 9.2). -/
def PieceFlags.ofByte (b : Byte) : PieceFlags := ⟨b.getLsbD 3, b.getLsbD 2, b.getLsbD 1, b.getLsbD 0⟩

/-- Status record byte 9: STATE-CHANGE 0, GATE-FAULT 1, MUTE 2, LINE-FAULT 3, BAND-FAULT 4. -/
def Attention.code (a : Attention) : Nat :=
  bit a.stateChange + 2 * bit a.gateFault + 4 * bit a.mute + 8 * bit a.lineFault + 16 * bit a.bandFault

/-- The attention set holds a reason (R175). -/
def Attention.any (a : Attention) : Bool := a.stateChange || a.gateFault || a.mute || a.lineFault || a.bandFault

/-- Reasons join the set, each staying there once (R175). -/
def Attention.join (a b : Attention) : Attention :=
  ⟨a.stateChange || b.stateChange, a.gateFault || b.gateFault, a.mute || b.mute, a.lineFault || b.lineFault,
    a.bandFault || b.bandFault⟩

/-- READ CAUSE byte: POWER 0, SUPPLY 1, PIN 2, SOFT 3, CONFIG 4. -/
def Causes.code (c : Causes) : Nat :=
  bit c.power + 2 * bit c.supply + 4 * bit c.pin + 8 * bit c.soft + 16 * bit c.config

/-- No reset cause flag set. -/
def Causes.clear : Causes := ⟨false, false, false, false, false⟩

/-- A reset cause flag is set (R175). -/
def Causes.any (c : Causes) : Bool := c.power || c.supply || c.pin || c.soft || c.config

end Sys2Proof.Machine
end

