-- ==== Sys2Proof/Machine/Operands.lean ====
section
/-! DEFINITION. What commands carry, read and written bit by bit: line samples, bytes and frames, the two checks, the three notice payloads, and the option block. -/

namespace Sys2Proof.Machine

/-! ### Bits and bytes of the line (R127, R128) -/

/-- The value of a bit: the majority of its three samples (R127). -/
def majority (t : BitVec 3) : Bool :=
  2 ≤ bit (t.getLsbD 0) + bit (t.getLsbD 1) + bit (t.getLsbD 2)

/-- The start bit reads recessive: a glitch, discarded as a false start (R127). -/
def isGlitch (b : LineByte) : Bool := majority b.bits[0]

/-- The stop bit is sampled recessive (R128). -/
def stopGood (b : LineByte) : Bool := majority b.bits[9]

/-- The data byte, most significant bit first (R128). -/
def dataByte (b : LineByte) : Byte :=
  BitVec.ofNat 8 ([b.bits[1], b.bits[2], b.bits[3], b.bits[4], b.bits[5], b.bits[6], b.bits[7], b.bits[8]].foldl
    (fun a t => 2 * a + bit (majority t)) 0)

/-- The ten bits of a byte on the line: start 0, data most significant first, stop 1 (R128). -/
def lineBits (b : Byte) : List Bool :=
  false :: ([7, 6, 5, 4, 3, 2, 1, 0].map fun k => b.getLsbD k) ++ [true]

/-! ### Checks -/

/-- One bit of the frame check (R130). -/
def crc16Bit (r : BitVec 16) (d : Bool) : BitVec 16 :=
  if (r.getLsbD 15) != d then (r <<< 1) ^^^ 0x1021 else r <<< 1

/-- The frame check over bytes, each most significant bit first (R130). -/
def crc16 (bs : List Byte) : BitVec 16 :=
  bs.foldl (fun r b => [7, 6, 5, 4, 3, 2, 1, 0].foldl (fun r k => crc16Bit r (b.getLsbD k)) r) 0xFFFF

/-- One bit of the option block check (R179). -/
def crc8Bit (r : BitVec 8) (d : Bool) : BitVec 8 :=
  if (r.getLsbD 7) != d then (r <<< 1) ^^^ 0x1D else r <<< 1

/-- The option block check over bytes (R179). -/
def crc8 (bs : List Byte) : BitVec 8 :=
  bs.foldl (fun r b => [7, 6, 5, 4, 3, 2, 1, 0].foldl (fun r k => crc8Bit r (b.getLsbD k)) r) 0xFF

/-- The two bytes of a frame check, high byte first (R130). -/
def checkBytes (c : BitVec 16) : List Byte := bytesOf 2 c.toNat

/-! ### Frames (R129) -/

/-- The payload length of a kind: 1 HELLO, 2 PIECE, 3 ESCAPE. -/
def kindLength : Nat → Option Nat
  | 1 => some 8 | 2 => some 14 | 3 => some 4 | _ => none

/-- The kind of a KIND/LEN byte. -/
def kindOf (b : Byte) : Nat := b.toNat / 32

/-- The length of a KIND/LEN byte. -/
def lenOf (b : Byte) : Nat := b.toNat % 32

/-- The bytes of a frame being sent, its check computed over them (R129, R130). -/
def TxFrame.bytes (f : TxFrame) : List Byte :=
  let body := f.arb :: f.kindLen :: f.payload
  body ++ checkBytes (crc16 body)

/-- The bits of a frame being sent, ten for each byte (R128). -/
def TxFrame.bits (f : TxFrame) : List Bool := f.bytes.flatMap lineBits

/-- What a receiver has made of the bytes read so far. -/
inductive RxResult where
  | incomplete
  | discarded (e : RxError)
  | valid (arb kindLen : Byte) (payload : List Byte)
  deriving DecidableEq, Repr

/-- The receiver's tests, byte by byte (R128, R135, R136); got holds the bytes read, in order. A list that ends before
the frame is complete stands for a line with no further start edge, a GAP error; a list with no byte says nothing. A start
edge at sample 192 is in time, log 25. -/
def receive : List LineByte → List Byte → RxResult
  | [], got => if got.isEmpty then .incomplete else .discarded .gap
  | b :: rest, got =>
    if isGlitch b then receive rest got
    else if !got.isEmpty && decide (192 < b.edge) then .discarded .gap
    else if !stopGood b then .discarded .framing
    else
      let all := got ++ [dataByte b]
      match all with
      | arb :: kl :: body =>
        match kindLength (kindOf kl) with
        | none => .discarded .unknownKind
        | some n =>
          if lenOf kl ≠ n then .discarded .length
          else if body.length = n + 2 then
            if body.drop n = checkBytes (crc16 (arb :: kl :: body.take n)) then .valid arb kl (body.take n)
            else .discarded .crc
          else receive rest all
      | _ => receive rest all

/-- What the link reads of a frame, given the samples of its bytes: after a lost arbitration the start bit and the ARB bits
it sampled while it sent are the first bits of the received ARB byte (R133). -/
def Link.reads (k : Link) : List LineByte → List LineByte
  | [] => []
  | b :: rest =>
    if k.arbRead.isEmpty then b :: rest
    else
      { b with bits := Vector.ofFn fun i =>
          match (false :: k.arbRead)[i.val]? with
          | some v => if v then 7 else 0
          | none => b.bits[i] } :: rest

/-- The counter of a receiver error (R135). -/
def RxError.counter : RxError → Counter
  | .framing => .rxFraming
  | .gap => .rxGap
  | .unknownKind => .rxUnknownKind
  | .length => .rxLength
  | .crc => .rxCrc

/-- The line position a PIECE carries (R149). -/
def linePosition (s : Nat) (latch leadCount : Count) : Count := shift (BitVec.ofNat 24 s) (diff latch leadCount)

/-! ### Payloads (section 9.2) -/

/-- Byte k of a payload. -/
def payloadByte (p : List Byte) (k : Nat) : Byte := p.getD k 0

/-- A field of n bytes that begins at byte k. -/
def payloadNum (p : List Byte) (k n : Nat) : Nat := numOf ((p.drop k).take n)

/-- The HELLO payload. -/
def helloPayload (h : HelloFields) : List Byte :=
  bytesOf 2 h.s ++ bytesOf 2 h.o ++
    [BitVec.ofNat 8 (64 * h.kind.code + 32 * bit h.scan), BitVec.ofNat 8 h.step,
      BitVec.ofNat 8 (64 * h.station.code + 16 * h.belt.code),
      BitVec.ofNat 8 (64 * h.outlet.code + 32 * h.mode.code)]

/-- The fields of a HELLO payload; none when the outlet kind code is 3 (R152). Unused bits are not read. -/
def helloOfPayload (p : List Byte) : Option HelloFields :=
  (OutletKind.ofCode ((payloadByte p 4).toNat / 64)).map fun k =>
    { s := payloadNum p 0 2
      o := payloadNum p 2 2 % 4096
      kind := k
      scan := (payloadByte p 4).getLsbD 5
      step := (payloadByte p 5).toNat % 4
      station := .ofCode ((payloadByte p 6).toNat / 64)
      belt := .ofCode ((payloadByte p 6).toNat / 16 % 4)
      outlet := .ofCode ((payloadByte p 7).toNat / 64)
      mode := .ofCode ((payloadByte p 7).toNat / 32 % 2) }

/-- The PIECE payload with a line position. -/
def piecePayload (n : PieceNotice) (linepos : Count) : List Byte :=
  bytesOf 2 (16 * n.tag.toNat + n.flags.code) ++ bytesOf 3 linepos.toNat ++ bytesOf 2 n.length ++
    [BitVec.ofNat 8 n.first, BitVec.ofNat 8 n.last, BitVec.ofNat 8 n.centroid] ++ bytesOf 2 n.area ++
    [BitVec.ofNat 8 n.cls.code, BitVec.ofNat 8 n.verdict.code]

/-- The receive record of a PIECE payload; none when the content is malformed (R152, R156). -/
def recordOfPayload (p : List Byte) (station : Fin 16) (senderS : Nat) (latch : Count) : Option ReceiveRecord :=
  match PieceClass.ofCode ((payloadByte p 12).toNat % 8), Verdict.ofCode ((payloadByte p 13).toNat % 8) with
  | some c, some v =>
    let r : ReceiveRecord :=
      { station := station
        s := senderS
        tag := BitVec.ofNat 12 (payloadNum p 0 2 / 16)
        flags := .ofByte (payloadByte p 1)
        linepos := BitVec.ofNat 24 (payloadNum p 2 3)
        length := payloadNum p 5 2
        first := (payloadByte p 7).toNat % 32
        last := (payloadByte p 8).toNat % 32
        centroid := (payloadByte p 9).toNat % 32
        area := payloadNum p 10 2
        cls := c
        verdict := v
        latch := latch }
    if r.length = 0 ∨ r.area = 0 ∨ 8160 < r.area ∨ r.last < r.first ∨ r.centroid < r.first ∨ r.last < r.centroid then none
    else some r
  | _, _ => none

/-- The ESCAPE payload. -/
def escapePayload (e : EscapeNotice) : List Byte :=
  BitVec.ofNat 8 e.target.val :: bytesOf 2 e.tag.toNat ++ [BitVec.ofNat 8 e.cls.code]

/-- The fields of an ESCAPE payload; none when the class code is above 5 (R152). -/
def escapeOfPayload (p : List Byte) : Option EscapeNotice :=
  (PieceClass.ofCode ((payloadByte p 3).toNat % 8)).map fun c =>
    { target := Fin.ofNat 16 (payloadByte p 0).toNat
      tag := BitVec.ofNat 12 (payloadNum p 1 2)
      cls := c }

/-- KIND/LEN byte and payload of a notice; the line position of a PIECE is filled at the latch (R134, R149). -/
def Body.kindLen : Body → Byte
  | .hello _ => BitVec.ofNat 8 (32 * 1 + 8)
  | .piece _ => BitVec.ofNat 8 (32 * 2 + 14)
  | .escape _ => BitVec.ofNat 8 (32 * 3 + 4)

/-- The payload of a notice with the given line position for a PIECE. -/
def Body.payload (linepos : Count) : Body → List Byte
  | .hello h => helloPayload h
  | .piece p => piecePayload p linepos
  | .escape e => escapePayload e

/-! ### The option block (section 11.7) -/

/-- Byte k of an option block as a number. -/
def opt8 (b : Vector Byte 48) (k : Fin 48) : Nat := b[k].toNat

/-- The two-byte field at byte k. -/
def opt16 (b : Vector Byte 48) (k : Fin 48) : Nat := 256 * opt8 b k + opt8 b (k + 1)

/-- The fields of an option block. -/
def Options.ofBlock (b : Vector Byte 48) : Options where
  s := opt16 b 0
  kind := (OutletKind.ofCode (opt8 b 2 / 64)).getD .nothing
  scan := b[2].getLsbD 5
  o := opt16 b 3
  d := opt16 b 5
  pre := opt8 b 7
  post := opt8 b 8
  wMax := opt16 b 9
  laneOffset := b[11].toInt
  laneMargin := opt8 b 12
  peerWiden := opt8 b 13
  r := opt8 b 14
  p := opt8 b 15
  stepCode := opt8 b 16
  eject := b[17].setWidth 6
  fallback := b[18].setWidth 6
  passive := b[19].setWidth 6
  cover := if h : opt8 b 20 < 16 then some ⟨opt8 b 20, h⟩ else none
  areaMin := opt16 b 21
  areaMax := opt16 b 23
  tMetal := opt16 b 25
  tCell := opt16 b 27
  coilFloor := opt16 b 29
  faultFall := opt16 b 31
  faultRise := opt16 b 33
  lowFall := opt16 b 35
  lowRise := opt16 b 37
  bLow := opt8 b 39
  bNormal := opt8 b 40
  tOnMax := opt8 b 41
  listen := opt16 b 42
  hb := opt8 b 44
  hd := opt8 b 45
  rate := opt8 b 46

/-- The range and unused-bit tests of the layout (R179), over the fields and the bits the layout does not assign. -/
def blockInRange (b : Vector Byte 48) : Bool :=
  decide (opt8 b 2 / 64 ≤ 2) && decide (opt8 b 2 % 32 = 0) && decide (opt16 b 3 ≤ 4095) && decide (opt16 b 5 ≤ 50000) &&
  decide (opt8 b 7 ≤ 63) && decide (opt8 b 8 ≤ 63) && decide (1 ≤ opt16 b 9) && decide (opt16 b 9 ≤ 1023) &&
  decide (-3 ≤ b[11].toInt) && decide (b[11].toInt ≤ 3) && decide (opt8 b 12 ≤ 2) && decide (opt8 b 13 ≤ 3) &&
  decide (1 ≤ opt8 b 14) && decide (opt8 b 14 ≤ 8) && decide (1 ≤ opt8 b 15) && decide (opt8 b 15 ≤ 16) &&
  decide (opt8 b 16 ≤ 3) && decide (opt8 b 17 ≤ 63) && decide (opt8 b 18 ≤ 63) && decide (opt8 b 19 ≤ 63) &&
  (decide (opt8 b 20 ≤ 15) || decide (opt8 b 20 = 255)) &&
  decide (1 ≤ opt16 b 21) && decide (opt16 b 21 ≤ 8160) && decide (1 ≤ opt16 b 23) && decide (opt16 b 23 ≤ 8160) &&
  decide (opt16 b 25 ≤ 4095) && decide (1 ≤ opt16 b 27) && decide (opt16 b 27 ≤ 8190) && decide (opt16 b 29 ≤ 4095) &&
  decide (opt16 b 31 ≤ 4095) && decide (opt16 b 33 ≤ 4095) && decide (opt16 b 35 ≤ 4095) && decide (opt16 b 37 ≤ 4095) &&
  decide (opt8 b 39 ≤ 32) && decide (opt8 b 40 ≤ 32) && decide (5 ≤ opt8 b 41) && decide (opt8 b 41 ≤ 250) &&
  decide (opt8 b 45 ≤ 63) && decide (opt8 b 46 ≤ 2)

/-- The ordering tests of R179. -/
def blockOrdered (b : Vector Byte 48) : Bool :=
  decide (opt16 b 31 < opt16 b 33) && decide (opt16 b 33 ≤ opt16 b 37) && decide (opt16 b 35 < opt16 b 37) &&
  decide (opt16 b 31 ≤ opt16 b 35) && decide (opt8 b 39 ≤ opt8 b 40)

/-- The block the store holds is valid (R179). -/
def Store.valid (st : Store) : Bool :=
  st.mark && decide (st.bytes[47] = crc8 (st.bytes.toList.take 47)) && blockInRange st.bytes && blockOrdered st.bytes

/-- A whole block from bytes 0..46: byte 47 is the check the port computes (R180). -/
def blockOf (b : Vector Byte 47) : Vector Byte 48 := b.push (crc8 b.toList)

/-- Bytes 0..46 of a block from the arguments of WRITE OPTIONS (section 11.2). -/
def blockArgs (args : List Byte) : Vector Byte 47 := Vector.ofFn fun k => args.getD k.val 0

end Sys2Proof.Machine
end

