-- ==== Sys2Proof/Machine/Time.lean ====
section
/-! DEFINITION. The passing of time: the time base, every timer, and the idle and dominant counts of the line. -/

namespace Sys2Proof.Machine

/-- Samples of LB_RX in a µs: 16 per bit time at 250, 500 or 1,000 kbit/s (R126). -/
def samplesPerUs (rate : Nat) : Nat := if rate = 2 then 16 else if rate = 1 then 8 else 4

/-- µs of a bit time (R126). -/
def bitUs (rate : Nat) : Nat := if rate = 2 then 1 else if rate = 1 then 2 else 4

/-- The limit of a slot's silence timer, at which it stops (R168). -/
def silenceStop : Nat := 800000

/-- The belt tracker's step silence timer runs on (R4). -/
def Belt.pass (n : Nat) (b : Belt) : Belt := { b with silence := b.silence.map (· + n) }

/-- The conversion in progress and the auxiliary schedule run on (R16, R25). -/
def Scan.pass (n : Nat) (c : Scan) : Scan :=
  { c with jobTime := if c.job.isSome then c.jobTime + n else c.jobTime, auxTimer := c.auxTimer + n }

/-- A lane's test lane runs on (R107). -/
def Lane.pass (n : Nat) (l : Lane) : Lane := { l with test := l.test.map (· + n) }

/-- The test lanes run on (R107). -/
def Outlets.pass (n : Nat) (o : Outlets) : Outlets := { o with lanes := Vector.ofFn fun i => o.lanes[i].pass n }

/-- The travel timer runs on (R116). -/
def Gate.pass (n : Nat) (g : Gate) : Gate := { g with travel := g.travel.map (· + n) }

/-- n further samples of LB_RX, all at one level: the idle and dominant counts (R131, R139). -/
def Link.count (level : Level) (n : Nat) (k : Link) : Link :=
  if n = 0 then k
  else
    match level with
    | .recessive => { k with rx := level, idle := k.idle + n, dominant := 0 }
    | .dominant => { k with rx := level, idle := 0, dominant := k.dominant + n }

/-- The bits of an arbitration: the start bit and the eight data bits of ARB (R133). -/
def arbitrationBits : Nat := 9

/-- The eighth data bit of ARB has been sent without loss or error: the link enters SENDING (R133). -/
def Link.win (k : Link) : Link := if k.state = .arbitrating then { k with state := .sending, arbTime := none } else k

/-- The running time of the arbitration has come to its end (R133, log 8). -/
def Link.arbitrationOver (rate : Nat) (k : Link) : Bool := k.arbTime.any fun t => decide (arbitrationBits * bitUs rate ≤ t)

/-- The line is at one level for n µs: it is sampled, but for the samples read ahead (R131, R139, log 22), a break runs on
(R137), and so does an arbitration, to its end (R133). -/
def Link.pass (rate : Nat) (level : Level) (n : Nat) (k : Link) : Link :=
  let samples := n * samplesPerUs rate
  let k' := { k.count level (samples - k.ahead) with
    rx := level
    ahead := k.ahead - samples
    breakTime := k.breakTime.map (· + n)
    arbTime := k.arbTime.map (· + n) }
  if k'.arbitrationOver rate then k'.win else k'

/-- A silence timer runs on to its stop (R168). -/
def RosterSlot.pass (n : Nat) (r : RosterSlot) : RosterSlot :=
  { r with silence := r.silence.map fun t => min (t + n) silenceStop }

/-- The joining, HELLO and silence timers run on (R161, R165, R168). -/
def Station.pass (n : Nat) (t : Station) : Station :=
  { t with
    joining := t.joining.map (· + n)
    hello := t.hello.map (· + n)
    roster := Vector.ofFn fun i => t.roster[i].pass n }

/-- A source of reset still acts (R182). -/
def Rst.acting (r : Rst) : Bool := r.supplyLow || r.pinLow

/-- n µs pass with LB_RX at one level. While reset is asserted the time base and the timers do not run, and only the start
interval is measured, once no source acts (R15, R171, R182). -/
def State.pass (s : State) (level : Level) (n : Nat) : State :=
  if n = 0 then s
  else if s.rst.asserted then
    { s with
      link := { s.link with rx := level }
      rst := { s.rst with start := if s.rst.acting then 0 else s.rst.start + n } }
  else
    { s with
      timeBase := s.timeBase + BitVec.ofNat 32 n
      belt := s.belt.pass n
      scan := s.scan.pass n
      outlets := s.outlets.pass n
      gate := s.gate.pass n
      link := s.link.pass s.opts.rate level n
      station := s.station.pass n
      rst := { s.rst with sinceEnd := s.rst.sinceEnd + n } }

/-- The time before a command passes. -/
def State.elapse (s : State) (l : Lapse) : State := l.foldl (fun s r => s.pass r.level r.us) s

end Sys2Proof.Machine
end

