-- ==== Sys2Proof/Machine/Views.lean ====
section
/-! DEFINITION. What is read from the state and not stored in it: output pins, blocking, budget, outlet state, roster questions, the deadline order. -/

namespace Sys2Proof.Machine

/-! ### Outlets and gate -/

/-- The gate is in FAULT on a GATE station (R95, R108). -/
def State.gateFaulted (s : State) : Bool := decide (s.opts.kind = .gate) && decide (s.gate.state = .fault)

/-- The outlets are blocked (R95). -/
def State.blocked (s : State) : Bool :=
  decide (s.station.state ≠ .running) || decide (s.belt.state = .stopped) || decide (s.belt.state = .reversing) ||
    decide (s.scan.band = .fault) || s.gateFaulted

/-- The budget of the current band (R99). -/
def State.budget (s : State) : Nat :=
  match s.scan.band with
  | .fault => 0
  | .low => s.opts.bLow
  | .normal => s.opts.bNormal

/-- The number of OPEN lanes (R93). -/
def Outlets.openCount (o : Outlets) : Nat := (List.finRange 32).countP fun i => o.lanes[i].state = .opened

/-- The room left in the budget (R99). -/
def State.avail (s : State) : Nat := s.budget - s.outlets.openCount

/-- Any lane is COOLING (R108). -/
def Outlets.anyCooling (o : Outlets) : Bool := (List.finRange 32).any fun i => o.lanes[i].state = .cooling

/-- The outlet state (R108). -/
def State.outletState (s : State) : OutletState :=
  if s.opts.kind = .nothing then .nothing
  else if s.station.state = .setup ∨ s.station.state = .joining ∨ s.station.state = .paused ∨ s.scan.band = .fault ∨
      s.gateFaulted = true then .unavailable
  else if s.scan.band = .low ∨ s.outlets.anyCooling = true then .limited
  else .available

/-- Output OUTn is driven high (R93, R111). -/
def State.outPin (s : State) (n : Fin 32) : Bool := !s.rst.asserted && decide (s.outlets.lanes[n].state = .opened)

/-- The divert command of a gate state (R112). -/
def GateState.commanded : GateState → Bool
  | .movingOut | .divert => true
  | .rest | .movingBack | .fault => false

/-- Output GATE_DIV is driven high (R112, R125). -/
def State.gateDiv (s : State) : Bool :=
  !s.rst.asserted && decide (s.opts.kind = .gate) && s.gate.state.commanded

/-- Output ROTOR_OK is driven high (R123). -/
def State.rotorOk (s : State) : Bool :=
  !s.rst.asserted && decide (s.opts.kind = .gate) && decide (s.station.state = .running) && decide (s.gate.state ≠ .fault)

/-! ### Service port -/

/-- Output READY is driven high (R173, R182). -/
def State.ready (s : State) : Bool := !s.rst.asserted && s.port.response.isSome

/-- Output ALERT_N is driven low (R175). -/
def State.alert (s : State) : Bool := !s.rst.asserted && (s.port.attention.any || s.rst.causes.any)

/-- Byte k of the response stream (R172, R173): status, length, data, then 0x00. -/
def State.stream (s : State) (k : Nat) : Byte :=
  let r := s.port.response.getD ⟨.notReady, []⟩
  (BitVec.ofNat 8 r.status.code :: BitVec.ofNat 8 r.data.length :: r.data).getD k 0

/-- What SDO shows while byte k of a transaction whose first clock falls in this state is shifted out: high-impedance (none)
while SEL_N is high or reset is asserted, and the response stream otherwise (R172, R182). -/
def State.sdo (s : State) (selHigh : Bool) (k : Nat) : Option Byte :=
  if selHigh || s.rst.asserted then none else some (s.stream k)

/-- What SDO shows to the host at rising edge `clock` of SCK, counted from 0 for the first of a transaction whose first clock
falls in this state: each byte goes out most significant bit first (R172). -/
def State.sdoBit (s : State) (selHigh : Bool) (clock : Nat) : Option Bool :=
  (s.sdo selHigh (clock / 8)).map fun b => b.getLsbD (7 - clock % 8)

/-! ### Scan unit -/

/-- What the lines CUR_CLK and CUR_LD do in a µs: held low during reset (R32, R182); clock 1..40 of a curtain read, the pulse
of CUR_LD with the first (R20); or at rest between curtain reads, at a level the manual does not state (log 13). -/
inductive CurtainLines where
  | heldLow
  | reading (clock : Nat)
  | atRest
  deriving DecidableEq, Repr

/-- The clocks of a curtain read, one in each µs from the moment its sweep is taken (R20). -/
def curtainClocks : Nat := 40

/-- The curtain lines (R20, R32, R182). -/
def State.curtainLines (s : State) : CurtainLines :=
  if s.rst.asserted then .heldLow
  else if s.scan.job = some .sweep ∧ s.scan.jobTime < curtainClocks then .reading (s.scan.jobTime + 1)
  else .atRest

/-! ### Line link -/

/-- The bus is free (R131): 12 recessive bit times. -/
def Link.busFree (k : Link) : Bool := decide (192 ≤ k.idle)

/-- Transmission is permitted (R142). -/
def State.mayTransmit (s : State) : Bool :=
  (decide (s.station.state = .running) || decide (s.station.state = .paused)) && !s.station.mute &&
    decide (s.link.state ≠ .lineFault)

/-- The level LB_TX drives while bit k of the frame in progress is due (section 8.4). -/
def State.lbTx (s : State) (k : Nat) : Level :=
  if s.rst.asserted then .recessive
  else
    match s.link.state with
    | .arbitrating | .sending =>
      match s.link.frame with
      | some f => if f.bits.getD k true then .recessive else .dominant
      | none => .recessive
    | .breaking => .dominant
    | .idle | .receiving | .lineFault => .recessive

/-- The notices the station may request (R66, R68, R165): RUNNING or PAUSED with the mute flag clear. -/
def State.mayRequest (s : State) : Bool :=
  (decide (s.station.state = .running) || decide (s.station.state = .paused)) && !s.station.mute

/-! ### Roster questions (R170) -/

/-- The fields of a slot that counts in a question: PRESENT or QUIET. -/
def RosterSlot.live (r : RosterSlot) : Option HelloFields :=
  match r.state with
  | .present | .quiet => r.fields
  | .unknown | .absent | .mismatch | .self => none

/-- The listening set (R150, R170): PRESENT or QUIET with a greater S, in the order of station numbers. -/
def State.listeners (s : State) : List HelloFields :=
  (List.finRange 16).filterMap fun n =>
    match s.station.roster[n].live with
    | some f => if s.opts.s < f.s then some f else none
    | none => none

/-- The nearest acting peer downstream (R148, R170): smallest S, then smallest S + O, then lowest number. -/
def State.actingPeer (s : State) : Option HelloFields :=
  pickBest (fun y x => decide (y.s < x.s) || (decide (y.s = x.s) && decide (y.s + y.o < x.s + x.o)))
    (s.listeners.filter fun f => decide (f.kind ≠ .nothing) && decide (f.station = .running))

/-- The place on the material path that a lead has reached now, as an ordinary whole number (R148, R150). -/
def State.position (s : State) (leadCount : Count) : Int := (s.opts.s : Int) + diff s.belt.count leadCount

/-- The priority of a PIECE at its request (R148). -/
def State.piecePriority (s : State) (leadCount : Count) : Nat :=
  match s.actingPeer with
  | none => 3
  | some p =>
    let headroom : Int := (p.s : Int) + (p.o : Int) - s.position leadCount
    if headroom < 256 then 1 else if headroom < 1024 then 2 else 3

/-- A PIECE is stale (R150): no listener has an S greater than its position. -/
def State.isStale (s : State) (p : PieceNotice) : Bool :=
  !s.listeners.any fun f => decide (s.position p.lead < (f.s : Int))

/-- The values a HELLO announces now (R146). -/
def State.helloNow (s : State) : HelloFields where
  s := s.opts.s
  o := s.opts.o
  kind := s.opts.kind
  scan := s.opts.scan
  step := s.opts.stepCode
  station := s.station.state
  belt := s.belt.state
  outlet := s.outletState
  mode := s.station.mode

/-- The mode the cover station's slot gives (R169). -/
def State.modeNow (s : State) : Mode :=
  match s.opts.cover with
  | none => .assisted
  | some c =>
    match s.station.roster[c].live with
    | some f => if f.station = .running ∧ f.outlet ≠ .unavailable then .assisted else .alone
    | none => .alone

/-! ### Deadline order (R62) -/

/-- What a deadline belongs to: an entry by its slot, an escape record by its place in the list. -/
inductive DeadlineOwner where
  | entry (slot : Fin 128)
  | escape (place : Nat)
  deriving DecidableEq, Repr

/-- The deadlines held, entries in slot order before escape records in list order (R62). -/
def State.deadlines (s : State) : List (Count × DeadlineOwner) :=
  ((List.finRange 128).filterMap fun i =>
    match s.table.slots[i] with
    | some e =>
      if e.state = .expected ∨ e.state = .passing then e.deadline.map fun d => (d, DeadlineOwner.entry i) else none
    | none => none) ++
  s.table.escapes.zipIdx.map fun (r, k) => (r.expiry, DeadlineOwner.escape k)

/-- The earliest deadline (R62). -/
def State.earliest (s : State) : Option (Count × DeadlineOwner) :=
  pickBest (fun y x => isBefore y.1 x.1) s.deadlines

/-- The deadline request stands (R62). -/
def State.deadlineStands (s : State) : Bool :=
  match s.earliest with
  | some (d, _) => reaches s.belt.count d
  | none => false

/-! ### The arbiter's claimants (R51) -/

/-- The claimants that wait. -/
def State.claims (s : State) : Claims :=
  ⟨!s.table.reports.isEmpty, !s.former.queue.isEmpty, !s.rxQueue.isEmpty, s.deadlineStands⟩

/-- The mark of one claimant. -/
def Claims.has (c : Claims) : Claimant → Bool
  | .report => c.report
  | .localPiece => c.localPiece
  | .received => c.received
  | .deadline => c.deadline

/-- A claimant that comes earlier in the order waits (R51). -/
def Claims.ahead (c : Claims) : Claimant → Bool
  | .report => false
  | .localPiece => c.report
  | .received => c.report || c.localPiece
  | .deadline => c.report || c.localPiece || c.received

/-- Any claimant is marked. -/
def Claims.any (c : Claims) : Bool := c.report || c.localPiece || c.received || c.deadline

/-- The table, being free, may take this claimant's request next (R51): it waits, and no earlier claimant waits, or the two
became pending at the same moment with the table free (log 5). -/
def State.mayTake (s : State) (c : Claimant) : Bool :=
  s.table.inFlight.isNone && s.claims.has c && (!s.claims.ahead c || s.table.tied.has c)

end Sys2Proof.Machine
end

