-- ==== Sys2Proof/Machine/Notices.lean ====
section
/-! DEFINITION. Notices on their way out: the transmit queue, the requests that fill it, the stale check and the start of an attempt. -/

namespace Sys2Proof.Machine

/-! ### The transmit queue (R140, R141) -/

/-- A notice joins behind every notice of lower or equal ARB (R140). -/
def joinQueue (n : Notice) (q : List Notice) : List Notice := insertBehind (fun y x => decide (x.arb < y.arb)) n q

/-- The notice is a HELLO. -/
def Notice.isHello (n : Notice) : Bool :=
  match n.body with
  | .hello _ => true
  | .piece _ | .escape _ => false

/-- The notice is an ESCAPE that is not being attempted. -/
def Notice.isIdleEscape (n : Notice) : Bool :=
  match n.body with
  | .escape _ => !n.attempted
  | .hello _ | .piece _ => false

/-- The HELLO notice of a station (R145): priority 5. -/
def helloNotice (number : Fin 16) (h : HelloFields) : Notice := ⟨80 + number.val, .hello h, false⟩

/-- The ESCAPE not being attempted that a HELLO replaces: highest ARB, and of equals the one that joined last (R141). -/
def lastIdleEscape : List Notice → Option (List Notice)
  | [] => none
  | n :: rest =>
    match lastIdleEscape rest with
    | some rest' =>
      if n.isIdleEscape && (rest.filter Notice.isIdleEscape).all fun m => decide (m.arb < n.arb) then some rest
      else some (n :: rest')
    | none => if n.isIdleEscape then some rest else none

/-- A HELLO becomes the pending HELLO, or replaces its content (R141). -/
def State.waitHello (s : State) (h : HelloFields) : State := { s with link := { s.link with waiting := some h } }

/-- A HELLO is offered to the transmit queue (R141). -/
def State.offerHello (s : State) (h : HelloFields) : State :=
  let k := s.link
  if k.waiting.isSome then s.waitHello h
  else
    match k.queue.find? Notice.isHello with
    | some q =>
      if q.attempted then s.waitHello h
      else
        { s with
          link := { k with queue := k.queue.map fun n => if n.isHello then { n with body := .hello h } else n } }
    | none =>
      if k.queue.length < 16 then
        { s with link := { k with queue := joinQueue (helloNotice s.station.number h) k.queue } }
      else
        match lastIdleEscape k.queue with
        | some q =>
          { s with link := { k with queue := joinQueue (helloNotice s.station.number h) q } }.bump .txDropped
        | none => s.waitHello h

/-- A PIECE or an ESCAPE is offered to the transmit queue (R141). -/
def State.offerNotice (s : State) (arb : Nat) (b : Body) : State :=
  if s.link.queue.length < 16 then
    { s with link := { s.link with queue := joinQueue ⟨arb, b, false⟩ s.link.queue } }
  else s.bump .txDropped

/-- A pending HELLO takes a freed place at once (R141). -/
def Link.fillFreed (number : Fin 16) (k : Link) : Link :=
  match k.waiting with
  | some h =>
    if k.queue.length < 16 then { k with queue := joinQueue (helloNotice number h) k.queue, waiting := none } else k
  | none => k

/-- The notice of the attempt leaves the queue, sent or discarded (R138, R141). -/
def Link.dropAttempted (number : Fin 16) (k : Link) : Link :=
  Link.fillFreed number { k with queue := k.queue.filter fun n => !n.attempted }

/-- The attempt ends with its notice kept in its place; a HELLO takes a pending HELLO's content (R138, R141). -/
def Link.keepAttempted (k : Link) : Link :=
  if k.queue.any fun n => n.attempted && n.isHello then
    { k with
      queue := k.queue.map fun n =>
        if n.attempted then { n with attempted := false, body := (k.waiting.map Body.hello).getD n.body } else n
      waiting := none }
  else { k with queue := k.queue.map fun n => { n with attempted := false } }

/-! ### Requests (R66, R68, R146, R147, R151, R165) -/

/-- A HELLO is requested (R165), built from the values in force (R146). -/
def State.requestHello (s : State) : State := if s.mayRequest then s.offerHello s.helloNow else s

/-- A PIECE notice is requested at a settlement (R66, R67), with its priority by headroom (R148). -/
def State.requestPiece (s : State) (p : PieceNotice) : State :=
  if s.mayRequest && !s.listeners.isEmpty then
    s.offerNotice (16 * s.piecePriority p.lead + s.station.number.val) (.piece p)
  else s

/-- An ESCAPE notice is requested at an escape match (R68): priority 6 (R151). -/
def State.requestEscape (s : State) (e : EscapeNotice) : State :=
  if s.mayRequest then s.offerNotice (96 + s.station.number.val) (.escape e) else s

/-! ### Attempts (R132, R150) -/

/-- The notice is a PIECE that the stale check drops (R150). -/
def State.dropsAsStale (s : State) (n : Notice) : Bool :=
  match n.body with
  | .piece p => s.isStale p
  | .hello _ | .escape _ => false

/-- The stale checks before an attempt (R132, R150): stale PIECEs leave the head, and a pending HELLO takes a freed place. -/
def State.staleChecks (s : State) : State :=
  let gone := s.link.queue.takeWhile s.dropsAsStale
  let left := s.link.queue.dropWhile s.dropsAsStale
  let s' := State.bumps .txStale gone.length s
  if gone.isEmpty then s'
  else { s' with link := Link.fillFreed s.station.number { s.link with queue := left } }

/-- The frame of an attempt: the line position of a PIECE is filled at the latch (R132, R134). -/
def frameOf (n : Notice) : TxFrame := ⟨BitVec.ofNat 8 n.arb, n.body.kindLen, n.body.payload 0⟩

/-- An attempt is made with the head notice, if the stale checks leave one (R132). -/
def State.beginAttempt (s : State) : State :=
  let s' := s.staleChecks
  match s'.link.queue with
  | [] => s'
  | n :: rest =>
    { s' with
      link := { s'.link with
        state := .arbitrating
        queue := { n with attempted := true } :: rest
        frame := some (frameOf n)
        arbTime := some 0
        arbRead := []
        latch := none } }

/-- The conditions of an attempt: IDLE, a free bus, permission to transmit, and a notice in the queue (R132). -/
def State.mayAttempt (s : State) : Bool :=
  decide (s.link.state = .idle) && s.link.busFree && s.mayTransmit && !s.link.queue.isEmpty

/-- A link makes its attempt when the conditions hold (R132). -/
def State.attempt (s : State) : State := if s.mayAttempt then s.beginAttempt else s

end Sys2Proof.Machine
end

