-- ==== Sys2Proof/Machine/Gate.lean ====
section
/-! DEFINITION. The gate unit's operations: divert intervals, the divert command, hold-through, fault entry and the passage query. -/

namespace Sys2Proof.Machine

/-- AT-REST alone: SW_REST closed and SW_DIV open; a switch is closed when its level is low (R112). -/
def Gate.atRest (g : Gate) : Bool := !g.swRest && g.swDiv

/-- AT-DIVERT alone: SW_DIV closed and SW_REST open. -/
def Gate.atDivert (g : Gate) : Bool := g.swRest && !g.swDiv

/-- Both switches are closed (R115). -/
def Gate.bothClosed (g : Gate) : Bool := !g.swRest && !g.swDiv

/-- The current interval ends at a count and is appended to the history, the oldest leaving a full one (R113). -/
def Gate.endInterval (g : Gate) (last : Count) : Gate :=
  match g.current with
  | some b =>
    { g with
      current := none
      history := (if 4 ≤ g.history.length then g.history.drop 1 else g.history) ++ [⟨b, last⟩] }
  | none => g

/-- The divert command is asserted at a count with lead L: MOVING-OUT, or DIVERT at once if the gate is there (R113, R114,
R116). -/
def Gate.callOut (g : Gate) (count : Count) (L : Nat) : Gate :=
  let g := { g with current := some (g.current.getD (shift count L)) }
  if g.atDivert then { g with state := .divert, travel := none } else { g with state := .movingOut, travel := some 0 }

/-- The divert command is released at a count with lead L: MOVING-BACK, or REST at once if the gate is there (R113, R116,
R117). R119 restates the release without the last clause; it is taken to hold there too (DEDUCED, log 27). -/
def Gate.sendBack (g : Gate) (count : Count) (L : Nat) : Gate :=
  let g := g.endInterval (shift count L)
  if g.atRest then { g with state := .rest, travel := none } else { g with state := .movingBack, travel := some 0 }

/-- The gate acts at an open event that admits a window (R114). -/
def Gate.takeHolder (g : Gate) (count : Count) (L : Nat) : Gate :=
  let g := { g with holders := g.holders + 1 }
  match g.state with
  | .rest | .movingBack => g.callOut count L
  | .movingOut | .divert | .fault => g

/-- Closed intervals leave the history once the count has reached their end plus 8,192 (R113). -/
def Gate.expire (g : Gate) (count : Count) : Gate :=
  { g with history := g.history.filter fun iv => !reaches count (shift iv.last 8192) }

/-- The limit of the travel timer (R116). -/
def travelLimit (d : Nat) : Nat := max 20000 (2 * d)

/-- The open event of a gate window that has left the open queue (R114). -/
def State.gateOpenEvent (s : State) (L : Nat) (w : Window) : State :=
  if 32 ≤ s.outlets.closeQ.length then s.issue (.settled w.slot .denied (some .queue) w.flags)
  else
    { s with
      gate := s.gate.takeHolder s.belt.count L
      outlets := { s.outlets with
        closeQ := insertBehind (fun y x => isBefore x.pClose y.pClose) w s.outlets.closeQ } }.issue
      (.opened w.slot 0 w.flags)

/-- The hold-through test (R117): the front window of the open queue would need the gate out again. -/
def State.holdTest (s : State) (L : Nat) : Bool :=
  match s.outlets.openQ with
  | w :: _ => reaches s.belt.count (shift w.pOpen (-(2 * (L : Int))))
  | [] => false

/-- The gate is released at the count now (R117, R118, R119). -/
def State.releaseGate (s : State) (L : Nat) : State := { s with gate := s.gate.sendBack s.belt.count L }

/-- The verdict of a gate window at its close event (R117). -/
def gateVerdict (g : GateState) (f : WindowFlags) : Verdict :=
  match g with
  | .divert => if f.lateOpen || f.longCut then .trimmed else .ejected
  | .movingOut | .rest | .movingBack | .fault => .trimmed

/-- The close event of a gate window that has left the close queue (R117). -/
def State.gateCloseEvent (s : State) (L : Nat) (w : Window) : State :=
  let s' := { s with gate := { s.gate with holders := s.gate.holders - 1 } }.issue
    (.settled w.slot (gateVerdict s.gate.state w.flags) none w.flags)
  if s'.gate.holders = 0 ∧ s'.gate.state.commanded = true then
    if s'.holdTest L then s'.bump .holdThrough else s'.releaseGate L
  else s'

/-- The hold-through test repeated at a step while the gate is held out with no holder (R118). -/
def State.holdStep (s : State) (L : Nat) : State :=
  if s.opts.kind = .gate ∧ s.gate.state.commanded = true ∧ s.gate.holders = 0 ∧ s.holdTest L = false then s.releaseGate L
  else s

/-- The gate enters FAULT (R120), its interval ending with the lead of this moment (R113). -/
def State.enterGateFault (s : State) : State :=
  { s with
    gate := { s.gate.endInterval (shift s.belt.count s.lead) with state := .fault, travel := none } }.bump .gateFault

/-- Two spans of counts meet (R122): a closed interval b..e and an outlet interval a..z. -/
def Interval.meets (iv : Interval) (a z : Count) : Bool := reaches iv.last a && reaches z iv.first

/-- The passage query (R122). -/
def Gate.passage (g : Gate) (a z : Count) : Bool :=
  (match g.current with
    | some b => reaches z b
    | none => false) || g.history.any fun iv => iv.meets a z

end Sys2Proof.Machine
end

