-- ==== Sys2Proof/Machine/Outlets.lean ====
section
/-! DEFINITION. The outlet scheduler's operations: lanes and their holders, the grant, open and close events, due passes, blocking, band drops. -/

namespace Sys2Proof.Machine

/-! ### Lanes (R93) -/

/-- A holder leaves a lane; with the last one the lane becomes CLOSED (R93, R102). R93 does not say whether a lane that is no
longer OPEN keeps its opened-at time: here it drops it (DESIGN CHOICE, log 26). -/
def Lane.release (l : Lane) : Lane :=
  if l.holders ≤ 1 then { l with state := .closed, holders := 0, openedAt := none } else { l with holders := l.holders - 1 }

/-- A CLOSED lane is opened by its first holder (R93, R100). -/
def Lane.openAt (l : Lane) (now : TimeBase) : Lane := { l with state := .opened, holders := 1, openedAt := some now }

/-- The lanes after every lane of a grant has lost a holder. -/
def releaseLanes (g : LaneSet) (lanes : Vector Lane 32) : Vector Lane 32 :=
  Vector.ofFn fun i => if LaneSet.has g i then lanes[i].release else lanes[i]

/-- One lane's record is replaced. -/
def State.setLane (s : State) (n : Fin 32) (l : Lane) : State :=
  { s with outlets := { s.outlets with lanes := s.outlets.lanes.set n l } }

/-- Every window whose grant contains the lane loses it and has LANES-TRIMMED set (R103, R105). -/
def loseLane (n : Fin 32) (q : List Window) : List Window :=
  q.map fun w =>
    if LaneSet.has w.grant n then { w with grant := LaneSet.remove w.grant n, flags := { w.flags with lanesTrimmed := true } }
    else w

/-- A lane is taken from the windows that hold it and from its test lane, with its new record (R103, R105). -/
def State.takeLane (s : State) (n : Fin 32) (l : Lane) : State :=
  { s with
    outlets := { s.outlets with closeQ := loseLane n s.outlets.closeQ, lanes := s.outlets.lanes.set n l } }

/-! ### The grant (R100) -/

/-- The lanes of a span outward from its centroid, the higher lane first at each distance (R100). -/
def visitOrder (sp : Span) : List (Fin 32) :=
  ((List.range 32).flatMap fun d => if d = 0 then [sp.centroid] else if d ≤ sp.centroid then [sp.centroid + d, sp.centroid - d]
    else [sp.centroid + d]).filterMap fun n =>
      if h : n < 32 then if sp.first ≤ n ∧ n ≤ sp.last then some ⟨n, h⟩ else none else none

/-- What a grant has done so far. -/
structure GrantResult where
  lanes   : Vector Lane 32
  avail   : Nat
  granted : LaneSet
  skipped : Bool
  deriving DecidableEq, Repr

/-- One visited lane (R100). -/
def grantVisit (now : TimeBase) (g : GrantResult) (n : Fin 32) : GrantResult :=
  let l := g.lanes[n]
  match l.state with
  | .opened =>
    { g with lanes := g.lanes.set n { l with holders := l.holders + 1 }, granted := LaneSet.add g.granted n }
  | .cooling => { g with skipped := true }
  | .closed =>
    if g.avail = 0 then { g with skipped := true }
    else { g with lanes := g.lanes.set n (l.openAt now), avail := g.avail - 1, granted := LaneSet.add g.granted n }

/-- The grant over a window's span (R100). -/
def grantLanes (now : TimeBase) (avail : Nat) (sp : Span) (lanes : Vector Lane 32) : GrantResult :=
  (visitOrder sp).foldl (grantVisit now) ⟨lanes, avail, 0, false⟩

/-! ### Open and close events (R99 to R102) -/

/-- The open event of a lane window that has left the open queue (R99, R101). -/
def State.laneOpenEvent (s : State) (w : Window) : State :=
  if 32 ≤ s.outlets.closeQ.length then s.issue (.settled w.slot .denied (some .queue) w.flags)
  else
    let g := grantLanes s.timeBase s.avail (w.span.getD ⟨0, 0, 0⟩) s.outlets.lanes
    if g.granted = 0 then s.issue (.settled w.slot .denied (some .budget) w.flags)
    else
      let w' := { w with grant := g.granted, flags := { w.flags with lanesTrimmed := w.flags.lanesTrimmed || g.skipped } }
      { s with
        outlets := { s.outlets with
          lanes := g.lanes
          closeQ := insertBehind (fun y x => isBefore x.pClose y.pClose) w' s.outlets.closeQ } }.issue
        (.opened w'.slot w'.grant w'.flags)

/-- The open event of a window (R94): by the station's outlet kind. -/
def State.openEvent (s : State) (L : Nat) (w : Window) : State :=
  match s.opts.kind with
  | .lanes => s.laneOpenEvent w
  | .gate => s.gateOpenEvent L w
  | .nothing => s

/-- The close event of a lane window that has left the close queue (R102). -/
def State.laneCloseEvent (s : State) (w : Window) : State :=
  { s with outlets := { s.outlets with lanes := releaseLanes w.grant s.outlets.lanes } }.issue
    (.settled w.slot w.flags.laneVerdict none w.flags)

/-- The close event of a window: R102 on a LANES station, R117 on a GATE station. -/
def State.closeEvent (s : State) (L : Nat) (w : Window) : State :=
  match s.opts.kind with
  | .lanes => s.laneCloseEvent w
  | .gate => s.gateCloseEvent L w
  | .nothing => s

/-! ### Due passes (R94, R97, R98) -/

/-- The open queue's content is replaced. -/
def State.setOpenQ (s : State) (q : List Window) : State := { s with outlets := { s.outlets with openQ := q } }

/-- The close queue's content is replaced. -/
def State.setCloseQ (s : State) (q : List Window) : State := { s with outlets := { s.outlets with closeQ := q } }

/-- The count reaches a point less the lead (R94). -/
def State.due (s : State) (L : Nat) (point : Count) : Bool := reaches s.belt.count (shift point (-(L : Int)))

/-- Takes due windows from the front of the open queue, acting on each as it leaves (R94, R97, R98). -/
def frontPass (isDue : Window → Bool) (act : Window → State → State) : List Window → State → State
  | [], s => s.setOpenQ []
  | w :: rest, s => if isDue w then frontPass isDue act rest (act w (s.setOpenQ rest)) else s.setOpenQ (w :: rest)

/-- Splits the close queue into the windows that close at this step and those that stay: from the front while due, a window
that opened at this step being passed over (R94). -/
def splitClosing (isDue fresh : Window → Bool) : List Window → List Window × List Window
  | [] => ([], [])
  | w :: rest =>
    if isDue w then
      let p := splitClosing isDue fresh rest
      if fresh w then (p.1, w :: p.2) else (w :: p.1, p.2)
    else ([], w :: rest)

/-- A due window met while outlets are blocked (R97). -/
def State.denyBlocked (w : Window) (s : State) : State := s.issue (.settled w.slot .denied (some .blocked) w.flags)

/-- A window resolved at the step that makes the belt MOVING (R98). -/
def State.resolve (L : Nat) (w : Window) (s : State) : State :=
  if s.due L w.pClose then s.issue (.settled w.slot .denied (some .unsettled) w.flags)
  else if s.blocked then s.denyBlocked w
  else s.openEvent L { w with flags := { w.flags with lateOpen := true } }

/-- The opens and closes passes of a step taken while outlets are not blocked (R94). -/
def State.duePasses (s : State) (L : Nat) : State :=
  let held := s.outlets.closeQ.map Window.slot
  let s1 := frontPass (fun w => s.due L w.pOpen) (fun w s => s.openEvent L w) s.outlets.openQ s
  let p := splitClosing (fun w => s.due L w.pClose) (fun w => !held.contains w.slot) s1.outlets.closeQ
  p.1.foldl (fun s w => s.closeEvent L w) (s1.setCloseQ p.2)

/-- The outlet scheduler's and gate unit's work at a forward step (R94, R97, R98, R113, R118); became tells that this step
made the belt MOVING. -/
def State.outletStep (s : State) (became : Bool) : State :=
  let s := { s with gate := s.gate.expire s.belt.count }
  if s.belt.state = .moving then
    let L := s.lead
    let s' :=
      if became then frontPass (fun w => s.due L w.pOpen) (State.resolve L) s.outlets.openQ s
      else if s.blocked then frontPass (fun w => s.due L w.pOpen) State.denyBlocked s.outlets.openQ s
      else s.duePasses L
    if s'.blocked then s' else s'.holdStep L
  else s

/-! ### Blocking begins (R96, R119) -/

/-- A window is cut (R96): its lanes or its hold on the gate are released, and it is settled TRIMMED with CUT. -/
def State.cutWindow (s : State) (w : Window) : State :=
  { s with
    outlets := { s.outlets with lanes := releaseLanes w.grant s.outlets.lanes }
    gate := { s.gate with holders := if s.opts.kind = OutletKind.gate then s.gate.holders - 1 else s.gate.holders } }.issue
    (.settled w.slot .trimmed none { w.flags with cut := true })

/-- Blocking begins: every window of the close queue ends, and a gate held out is released (R96, R119). -/
def State.beginBlocking (s : State) : State :=
  let s' := s.outlets.closeQ.foldl State.cutWindow (s.setCloseQ [])
  if s'.opts.kind = .gate ∧ s'.gate.state.commanded = true ∧ s'.gate.holders = 0 then s'.releaseGate s'.lead else s'

/-! ### Supply band drops (R105) -/

/-- The OPEN lane that closes next: the latest opened-at time, then the higher number (R105). -/
def State.lastOpened (s : State) : Option (Fin 32) :=
  let age := fun n : Fin 32 => sinceTime s.timeBase (s.outlets.lanes[n].openedAt.getD s.timeBase)
  pickBest (fun y x => decide (age y < age x) || (decide (age y = age x) && decide (x < y)))
    ((List.finRange 32).filter fun n => s.outlets.lanes[n].state = .opened)

/-- Closes k lanes, the most recently opened first (R105). -/
def closeExcess : Nat → State → State
  | 0, s => s
  | k + 1, s =>
    match s.lastOpened with
    | some n => closeExcess k ((s.takeLane n .afterReset).bump .bandDropClose)
    | none => s

/-- The lanes above the budget of the current band close (R105). -/
def State.dropToBudget (s : State) : State := closeExcess (s.outlets.openCount - s.budget) s

/-! ### Test lanes (R106, R107) -/

/-- A test lane ends: its holder is released (R107). -/
def Lane.endTest (l : Lane) : Lane := if l.test.isSome then { l.release with test := none } else l

/-- Every test lane ends (R107, on leaving PAUSED). -/
def State.endTests (s : State) : State :=
  { s with outlets := { s.outlets with lanes := Vector.ofFn fun i => s.outlets.lanes[i].endTest } }

end Sys2Proof.Machine
end

