-- ==== Sys2Proof/Machine/HandOn.lean ====
section
/-! DEFINITION. What every event hands on when it has acted: blocking, attention, HELLO requests, an attempt on a free bus; and the frame of an event. -/

namespace Sys2Proof.Machine

/-- The outcome of a command. -/
abbrev Out := Host.Outcome State Fault Refusal

/-- The reasons that an event from b to a adds to the attention set (R175). -/
def reasons (b a : State) : Attention where
  stateChange := decide (a.station.state ≠ b.station.state)
  gateFault := decide (a.gate.state = .fault) && decide (b.gate.state ≠ .fault)
  mute := a.station.mute && !b.station.mute
  lineFault := decide (a.link.state = .lineFault) && decide (b.link.state ≠ .lineFault)
  bandFault := decide (a.scan.band = .fault) && decide (b.scan.band ≠ .fault)

/-- An event from b to a changes something a HELLO announces at once (R165): belt state, station state, outlet state or
mode. -/
def announces (b a : State) : Bool :=
  decide (a.belt.state ≠ b.belt.state) || decide (a.station.state ≠ b.station.state) ||
    decide (a.outletState ≠ b.outletState) || decide (a.station.mode ≠ b.station.mode)

/-- Blocking begins when its condition passes from false to true (R95, R96). -/
def blockIfBegun (b a : State) : State := if !b.blocked && a.blocked then a.beginBlocking else a

/-- The event's reasons join the attention set (R175). -/
def attend (b a : State) : State :=
  { a with port := { a.port with attention := a.port.attention.join (reasons b a) } }

/-- A HELLO is requested when the event announces something (R163, R165). -/
def announce (b a : State) : State := if announces b a then a.requestHello else a

/-- An event that brings about the conditions of an attempt, by a notice that joins or by a link that comes to IDLE on a free
bus, is followed by the attempt at once (R132). Where they held before it, the attempt is BUS_FREE's. -/
def attemptIfReady (b a : State) : State := if b.mayAttempt then a else a.attempt

/-- The claimants that have become pending together while the table was free (R51; MODEL, log 5). -/
def markTied (b a : State) : State :=
  if !b.claims.any && b.table.inFlight.isNone then { a with table := { a.table with tied := a.claims } } else a

/-- What an event from b to a hands on, in the model's fixed order (log 23). The waiting commands are not an event's to
change. -/
def handOn (b a : State) : State :=
  let a1 := attend b (blockIfBegun b a)
  let a2 := attemptIfReady b (announce b a1)
  { markTied b a2 with pending := b.pending }

/-- An event of the running part: the lapse passes, the event acts and is handed on. While reset is asserted no block takes
an event (R15, R32, R47, R74, R111, R158, R171, R182). -/
def event (l : Lapse) (f : State → State) (s : State) : Out :=
  let e := s.elapse l
  if e.rst.asserted then .next e else .next (handOn e (f e))

end Sys2Proof.Machine
end

