-- ==== Sys2Proof/Machine/Scan.lean ====
section
/-! DEFINITION. The scan unit: the converter arbiter, row triggers and overruns, curtain, cells, baselines, row records, the supply band and COIL-WEAK; the commands SWEEP_COMPLETE, AUXILIARY_TICK, AUXILIARY_CONVERSION_COMPLETE and SAMPLE_COMPLETE. -/

namespace Sys2Proof.Machine

/-! ### Converter arbiter (R16, R17) -/

/-- The duration of a job, µs (R16). -/
def Job.duration : Job → Nat
  | .sweep => 64
  | .sample _ _ => 2
  | .aux _ => 2

/-- A free converter pair takes the next pending job: sweep, SAMPLE, auxiliary (R17). -/
def Scan.arbitrate (c : Scan) : Scan :=
  match c.job with
  | some _ => c
  | none =>
    match c.sweep, c.sampleWait, c.auxWait with
    | some w, sw, aw =>
      if w.taken then
        match sw, aw with
        | some ch, _ => { c with job := some (.sample ch true), jobTime := 0, sampleWait := none }
        | none, some a => { c with job := some (.aux a), jobTime := 0, auxWait := none }
        | none, none => c
      else { c with job := some .sweep, jobTime := 0, sweep := some { w with taken := true } }
    | none, some ch, _ => { c with job := some (.sample ch true), jobTime := 0, sampleWait := none }
    | none, none, some a => { c with job := some (.aux a), jobTime := 0, auxWait := none }
    | none, none, none => c

/-- The converter pair falls free and takes the next job (R17). -/
def Scan.release (c : Scan) : Scan := Scan.arbitrate { c with job := none, jobTime := 0 }

/-- The job in progress has run its duration (R16). -/
def Scan.jobDone (c : Scan) : Bool :=
  match c.job with
  | some j => decide (j.duration ≤ c.jobTime)
  | none => false

/-! ### Row triggers (R18, R23) -/

/-- A row trigger arrives with its row count (R18, R23). -/
def State.trigger (s : State) (row : Count) : State :=
  if s.opts.scan = true ∧ s.station.state ≠ .setup then
    match s.scan.sweep with
    | none => { s with scan := Scan.arbitrate { s.scan with sweep := some ⟨row, false, []⟩ } }
    | some w =>
      { s with
        scan := { s.scan with
          sweep := some { w with overrun := if w.overrun.length < 8 then w.overrun ++ [row] else w.overrun } } }.bump
        .rowOverrun
  else s

/-! ### Sweep completion (R19 to R24) -/

/-- Status bit 0 of a curtain read, clock 40: an emitter fault (R20). -/
def emitterFault (curtain : BitVec 40) : Bool := curtain.getLsbD 39

/-- The curtain bit of a lane for the row (R20). -/
def curtainBit (curtain : BitVec 40) (n : Fin 32) : Bool := !emitterFault curtain && curtain.getLsbD n.val

/-- The cell of a lane (R21). -/
def cellOf (tCell : Nat) (b : Baseline) (raw : RawPair) (blocked : Bool) : Cell :=
  let ic := raw.i.toInt - b.i0
  let qc := raw.q.toInt - b.q0
  ⟨ic, qc, blocked, blocked || decide (tCell ≤ ic.natAbs + qc.natAbs)⟩

/-- The baseline divisor of a station state at completion (R24). -/
def divisor (st : StationState) : Int :=
  match st with
  | .joining => 4
  | .setup | .running | .paused => 32

/-- The baseline after a row, from the lane's cell (R24): truncation is toward zero. -/
def baselineAfter (k : Int) (b : Baseline) (c : Cell) : Baseline :=
  if c.occupied then b else ⟨b.i0 + c.ic.tdiv k, b.q0 + c.qc.tdiv k⟩

/-- The row record of a completed sweep (R22). -/
def State.sweptRow (s : State) (row : Count) (raw : Vector RawPair 32) (curtain : BitVec 40) : RowRecord where
  row := row
  cells := Vector.ofFn fun n => cellOf s.opts.tCell s.scan.base[n] raw[n] (curtainBit curtain n)
  repeated := false
  coilWeak := s.scan.coilWeak
  curtainFault := emitterFault curtain

/-- The rows a completed sweep delivers: its own, then a repeated row for each held overrun count (R19, R23). -/
def rowsOfSweep (w : Sweep) (r : RowRecord) : List RowRecord :=
  r :: w.overrun.map fun k => { r with row := k, repeated := true }

/-- A completed sweep (R19). -/
def State.sweepDone (s : State) (w : Sweep) (raw : Vector RawPair 32) (curtain : BitVec 40) : State :=
  let r := s.sweptRow w.row raw curtain
  let k := divisor s.station.state
  let delivered := if s.station.state = .running ∨ s.station.state = .paused then rowsOfSweep w r else []
  { s with
    scan := Scan.release { s.scan with
      base := Vector.ofFn fun n => baselineAfter k s.scan.base[n] r.cells[n]
      sweep := none
      lastSwept := some r
      curtainFault := emitterFault curtain }
    former := { s.former with rows := s.former.rows ++ delivered } }

/-- The sweep in progress completes with its results, once it has run 64 µs; otherwise nothing completes (R16, R19). -/
def State.completeSweep (s : State) (raw : Vector RawPair 32) (curtain : BitVec 40) : State :=
  match s.scan.job, s.scan.sweep with
  | some .sweep, some w => if s.scan.jobDone then s.sweepDone w raw curtain else s
  | _, _ => s

/-! ### Auxiliary channels (R25 to R28) -/

/-- The auxiliary schedule's period, µs (R25). -/
def auxPeriod : Nat := 1024

/-- An auxiliary tick (R25). -/
def Scan.tick (c : Scan) : Scan :=
  let c := { c with auxTimer := c.auxTimer - auxPeriod }
  match c.auxWait with
  | some _ => c
  | none =>
    Scan.arbitrate { c with
      auxWait := some c.nextAux
      nextAux := match c.nextAux with
        | .supply => .coil
        | .coil => .supply }

/-- An auxiliary value: the converter result plus 2,048 (R16). -/
def auxValue (r : Raw) : Nat := (r.toInt + 2048).toNat

/-- The target band of a SUPPLY value (R26). -/
def targetBand (o : Options) (b : Band) (v : Nat) : Band :=
  match b with
  | .fault => if o.lowRise ≤ v then .normal else if o.faultRise ≤ v then .low else .fault
  | .low => if v < o.faultFall then .fault else if o.lowRise ≤ v then .normal else .low
  | .normal => if v < o.faultFall then .fault else if v < o.lowFall then .low else .normal

/-- The debounce of the band (R27). -/
def Scan.takeSupply (c : Scan) (o : Options) (v : Nat) : Scan :=
  let t := targetBand o c.band v
  if t = c.band then { c with bandRun := 0 }
  else if c.candidate = some t ∧ 1 ≤ c.bandRun then
    if 3 ≤ c.bandRun then { c with band := t, bandRun := 0 } else { c with bandRun := c.bandRun + 1 }
  else { c with candidate := some t, bandRun := 1 }

/-- The COIL-WEAK test (R28). -/
def Scan.takeCoil (c : Scan) (floor v : Nat) : Scan :=
  if decide (v < floor) != c.coilWeak then
    if 3 ≤ c.coilRun then { c with coilWeak := !c.coilWeak, coilRun := 0 } else { c with coilRun := c.coilRun + 1 }
  else { c with coilRun := 0 }

/-- An auxiliary value is taken (R25). With an invalid block the band is held at FAULT and COIL-WEAK clear (R30). A band change
closes the lanes above the new budget (R27, R105). -/
def State.takeAux (s : State) (ch : AuxChannel) (v : Nat) : State :=
  if s.valid then
    match ch with
    | .supply =>
      let s' := { s with scan := s.scan.takeSupply s.opts v }
      if s'.scan.band = s.scan.band then s' else s'.dropToBudget
    | .coil => { s with scan := s.scan.takeCoil s.opts.coilFloor v }
  else s

/-- The converter pair is released (R17). -/
def State.releaseConverter (s : State) : State := { s with scan := s.scan.release }

/-- The auxiliary conversion in progress completes with its result, once it has run 2 µs (R16, R25). -/
def State.completeAux (s : State) (r : Raw) : State :=
  match s.scan.job with
  | some (.aux ch) => if s.scan.jobDone then (s.takeAux ch (auxValue r)).releaseConverter else s
  | _ => s

/-- The response data of a SAMPLE (R29, section 11.2). -/
def sampleData (ch : Channel) (r : RawPair) : List Byte :=
  match ch with
  | .lane _ => signedBytes 2 r.i.toInt ++ signedBytes 2 r.q.toInt
  | .aux _ => bytesOf 2 (auxValue r.i)

/-- The SAMPLE conversion in progress completes, once it has run 2 µs; a replaced one's result is discarded (R29). -/
def State.completeSample (s : State) (r : RawPair) : State :=
  match s.scan.job with
  | some (.sample ch live) =>
    if s.scan.jobDone then
      (if live then { s with port := { s.port with response := some ⟨.ok, sampleData ch r⟩ } } else s).releaseConverter
    else s
  | _ => s

/-- An auxiliary tick, once its time has come (R25). -/
def State.auxTick (s : State) : State :=
  if auxPeriod ≤ s.scan.auxTimer then { s with scan := s.scan.tick } else s

/-! ### Commands -/

/-- SWEEP_COMPLETE (R19 to R24). -/
def execSweepComplete (l : Lapse) (raw : Vector RawPair 32) (curtain : BitVec 40) (s : State) : Out :=
  event l (fun s => s.completeSweep raw curtain) s

/-- AUXILIARY_TICK (R25). -/
def execAuxiliaryTick (l : Lapse) (s : State) : Out := event l State.auxTick s

/-- AUXILIARY_CONVERSION_COMPLETE (R25 to R28). -/
def execAuxiliaryConversionComplete (l : Lapse) (result : Raw) (s : State) : Out :=
  event l (fun s => s.completeAux result) s

/-- SAMPLE_COMPLETE (R29). -/
def execSampleComplete (l : Lapse) (result : RawPair) (s : State) : Out := event l (fun s => s.completeSample result) s

end Sys2Proof.Machine
end

