-- ==== Sys2Proof/Machine/Decision.lean ====
section
/-! DEFINITION. The decision logic: mask, effective class, target test, window points, lane span, late tests and the outcome. -/

namespace Sys2Proof.Machine

/-- What a decision call reads if it starts now (R75). -/
def State.reading (s : State) : Reading where
  mode := s.station.mode
  count := s.belt.count
  belt := s.belt.state
  lead := s.lead
  room := decide (s.outlets.openQ.length < 32)

/-- The active mask in a mode (R77). -/
def State.activeMask (s : State) (m : Mode) : ClassMask :=
  match m with
  | .assisted => s.opts.eject
  | .alone => s.opts.fallback

/-- The chosen report (R79): largest sender S, and of equals the one that joined later. -/
def chosenReport (rs : List PeerReport) : Option PeerReport := pickBest (fun y x => decide (x.s ≤ y.s)) rs

/-- The effective class (R78). -/
def effectiveClass (own : Option PieceClass) (rs : List PeerReport) : PieceClass :=
  if own = some .ferrous ∨ rs.any (fun r => decide (r.cls = .ferrous)) = true then .ferrous
  else
    match own with
    | some c => if c ≠ .unknown then c else ((chosenReport rs).map PeerReport.cls).getD .unknown
    | none => ((chosenReport rs).map PeerReport.cls).getD .unknown

/-- The effective class of an entry (R78). -/
def Entry.effective (e : Entry) : PieceClass := effectiveClass (e.own.map LocalPart.cls) e.reports

/-- The target test (R80). -/
def State.isTarget (s : State) (m : Mode) (c : PieceClass) (n : Nat) : Bool :=
  decide (s.opts.kind ≠ .nothing) && ClassMask.has (s.activeMask m) c && decide (s.opts.areaMin ≤ n) && decide (n ≤ s.opts.areaMax)

/-- The verdict of a non-target that is settled by the passive mask (R65, R81). -/
def State.passiveVerdict (s : State) (c : PieceClass) : Verdict :=
  if ClassMask.has s.opts.passive c then .removed else .passed

/-- The window points and LONG-CUT (R83). -/
def windowPoints (o : Options) (leadCount trail : Count) : Count × Count × Bool :=
  let pOpen := shift leadCount ((o.o : Int) - (o.pre : Int))
  let pClose := shift trail ((o.o : Int) + (o.post : Int))
  if (o.wMax : Int) < diff pClose pOpen then (pOpen, shift pOpen (o.wMax : Int), true) else (pOpen, pClose, false)

/-- The lane span (R84): w is the peer-widen option without a local part and 0 with one. -/
def laneSpan (o : Options) (hasOwn : Bool) (first last centroid : Nat) : Span :=
  let w : Int := if hasOwn then 0 else (o.peerWiden : Int)
  { first := (clampInt ((first : Int) + o.laneOffset - (o.laneMargin : Int) - w) 0 31).toNat
    last := (clampInt ((last : Int) + o.laneOffset + (o.laneMargin : Int) + w) 0 31).toNat
    centroid := (clampInt ((centroid : Int) + o.laneOffset) 0 31).toNat }

/-- The outcomes of a decision (R61), each with the decision fields written (R75, R88). -/
inductive DecisionOutcome where
  | settle (v : Verdict) (cause : Option DenialCause) (d : Decision)
  | passage (d : Decision)
  | window (d : Decision) (w : Window)
  deriving DecidableEq, Repr

/-- The count read reaches a point less the lead read (R86). -/
def Reading.due (rd : Reading) (point : Count) : Bool := reaches rd.count (shift point (-(rd.lead : Int)))

/-- The late tests and the placing of a target's window, by the readings of the call (R86, R87, R88). -/
def placeWindow (rd : Reading) (d : Decision) (w : Window) : DecisionOutcome :=
  if rd.belt = .moving then
    if rd.due w.pClose then .settle .late none d
    else if rd.due w.pOpen then
      .window { d with flags := { d.flags with lateOpen := true } } { w with flags := { w.flags with lateOpen := true } }
    else .window d w
  else .window d w

/-- The decision of an entry by the readings of the call (R75, R76). A full open queue is met in the reading, or, where the
readings were made earlier, in the queue itself (R85). -/
def State.decision (s : State) (rd : Reading) (slot : Fin 128) (e : Entry) : DecisionOutcome :=
  let c := e.effective
  if s.isTarget rd.mode c e.area then
    let p := windowPoints s.opts e.lead e.trail
    let flags : WindowFlags := { WindowFlags.clear with longCut := p.2.2 }
    let d : Decision := ⟨c, true, some (p.1, p.2.1), 0, flags⟩
    if rd.room = false ∨ 32 ≤ s.outlets.openQ.length then .settle .denied (some .queue) d
    else
      let span := if s.opts.kind = .lanes then some (laneSpan s.opts e.own.isSome e.first e.last e.centroid) else none
      placeWindow rd d ⟨slot, p.1, p.2.1, flags, span, 0⟩
  else
    let d : Decision := ⟨c, false, none, 0, .clear⟩
    if s.opts.kind = .gate then .passage d else .settle (s.passiveVerdict c) none d

end Sys2Proof.Machine
end

