-- ==== Sys2Proof/Machine/Table.lean ====
section
/-! DEFINITION. The track table: requests and the arbiter, correlation, entries, the escape watch list, deadlines, settlement; the commands OPENED, SETTLED, LOCAL_PIECE, RECEIVE_RECORD and DEADLINE_REQUEST. -/

namespace Sys2Proof.Machine

/-! ### Settlement (R66, R67) -/

/-- The counters of a settlement (R66). -/
def State.countVerdict (s : State) (v : Verdict) (cause : Option DenialCause) (c : PieceClass) : State :=
  let s' := s.bump (.verdict v c)
  match v, cause with
  | .denied, some k => s'.bump k.counter
  | _, _ => s'

/-- A piece settles: its counters, then its PIECE notice (R66). -/
def State.settlePiece (s : State) (cause : Option DenialCause) (n : PieceNotice) : State :=
  (s.countVerdict n.verdict cause n.cls).requestPiece n

/-- The length of a span of counts from lead to trail. -/
def spanLength (leadCount trail : Count) : Nat := (trail - leadCount).toNat + 1

/-- The PIECE notice of an entry with a verdict and class (R67). -/
def Entry.notice (e : Entry) (v : Verdict) (c : PieceClass) : PieceNotice where
  tag := e.tag.getD 0
  flags := (e.own.map LocalPart.flags).getD e.geomFlags
  lead := e.lead
  length := spanLength e.lead e.trail
  first := e.first
  last := e.last
  centroid := e.centroid
  area := e.area
  cls := c
  verdict := v

/-- An entry settles with a verdict and its slot is freed (R66). -/
def State.settleEntry (s : State) (i : Fin 128) (e : Entry) (v : Verdict) (cause : Option DenialCause) : State :=
  (s.settlePiece cause (e.notice v ((e.decision.map Decision.cls).getD .unknown))).setSlot i none

/-! ### Decisions (R61) -/

/-- A window joins the open queue (R88, R91). -/
def State.queueWindow (s : State) (w : Window) : State :=
  s.setOpenQ (insertBehind (fun y x => isBefore x.pOpen y.pOpen) w s.outlets.openQ)

/-- The decision logic is called for an entry with its readings, and the table acts on its outcome (R61, R75). -/
def State.decideEntry (s : State) (rd : Reading) (i : Fin 128) (e : Entry) : State :=
  match s.decision rd i e with
  | .settle v cause d => s.settleEntry i { e with deadline := none, decision := some d } v cause
  | .passage d =>
    s.setSlot i (some { e with
      state := .passing, deadline := some (shift e.trail (s.opts.o : Int)), decision := some d })
  | .window d w => (s.setSlot i (some { e with state := .due, deadline := none, decision := some d })).queueWindow w

/-! ### Correlation (R53) -/

/-- A candidate that matches: its place, the magnitude of the count difference and its reference count. -/
structure Match where
  place : Nat
  mag   : Nat
  ref   : Count
  deriving DecidableEq, Repr

/-- The match test (R53): within the half-window, and the spans overlap after one is widened by w. -/
def matches? (w : Nat) (subject ref : Count) (h : Nat) (a b c d : Nat) (place : Nat) : Option Match :=
  if (diff subject ref).natAbs ≤ h ∧ a ≤ d + w ∧ c ≤ b + w then some ⟨place, (diff subject ref).natAbs, ref⟩ else none

/-- The candidate chosen (R53): smallest magnitude, then earlier reference count, then lower place. -/
def chooseMatch (ms : List Match) : Option Match :=
  pickBest (fun y x => decide (y.mag < x.mag) || (decide (y.mag = x.mag) && isBefore y.ref x.ref)) ms

/-- The EXPECTED entries that match a local piece (R53, R54). -/
def State.expectedMatches (s : State) (p : PieceRecord) : List Match :=
  (List.finRange 128).filterMap fun i =>
    match s.table.slots[i] with
    | some e =>
      match e.state, e.expectation with
      | .expected, some x => matches? s.opts.peerWiden p.lead x.e x.h p.first p.last e.first e.last i.val
      | _, _ => none
    | none => none

/-- The escape records that match a local piece (R53, R55). -/
def State.escapeMatches (s : State) (p : PieceRecord) : List Match :=
  s.table.escapes.zipIdx.filterMap fun (r, k) =>
    matches? s.opts.peerWiden p.lead r.e r.h p.first p.last r.first r.last k

/-- The reference count of an entry for a peer report (R53): its lead with a local part, otherwise its E. -/
def Entry.reference (e : Entry) : Option Count :=
  if e.own.isSome then some e.lead else e.expectation.map Expectation.e

/-- The entries in use that match a peer report (R53, R59). -/
def State.reportMatches (s : State) (r : PeerReport) (h : Nat) : List Match :=
  (List.finRange 128).filterMap fun i =>
    match s.table.slots[i] with
    | some e =>
      match e.reference with
      | some ref => matches? s.opts.peerWiden r.lead ref h r.first r.last e.first e.last i.val
      | none => none
    | none => none

/-! ### Local pieces (R54, R55, R56) -/

/-- The local part of a piece record. -/
def PieceRecord.part (p : PieceRecord) : LocalPart := ⟨p.cls, p.sumI, p.sumQ, p.nc, p.flags⟩

/-- The local piece is written into an EXPECTED entry (R54). -/
def Entry.writeLocal (e : Entry) (p : PieceRecord) : Entry :=
  { e with
    tag := some p.tag
    lead := p.lead
    trail := p.trail
    first := p.first
    last := p.last
    centroid := p.centroid
    area := p.n
    own := some p.part
    deadline := none }

/-- A new entry for a local piece (R56): no reports, expectation, escape source or deadline. Its state is written by the
decision that follows in the same request. -/
def PieceRecord.entry (p : PieceRecord) : Entry where
  state := .expected
  tag := some p.tag
  lead := p.lead
  trail := p.trail
  first := p.first
  last := p.last
  centroid := p.centroid
  area := p.n
  own := some p.part
  reports := []
  escapeSource := none
  expectation := none
  deadline := none
  decision := none
  geomFlags := p.flags

/-- The report an escape record leaves in the entry of the piece that matched it (R55). -/
def EscapeRecord.report (r : EscapeRecord) : PeerReport :=
  ⟨r.station, r.s, r.tag, r.cls, r.verdict, r.area, r.flags, r.e, r.length, r.first, r.last, r.centroid⟩

/-- The PIECE notice of a piece settled without an entry (R56, R67). -/
def PieceRecord.notice (p : PieceRecord) : PieceNotice :=
  ⟨p.tag, p.flags, p.lead, spanLength p.lead p.trail, p.first, p.last, p.centroid, p.n, p.cls, .denied⟩

/-- A record leaves the escape watch list (R55, R70). -/
def State.dropEscape (s : State) (k : Nat) : State :=
  { s with table := { s.table with escapes := s.table.escapes.eraseIdx k } }

/-- A local piece is taken (R54, R55, R56). -/
def State.serveLocal (s : State) (rd : Reading) (p : PieceRecord) : State :=
  match chooseMatch (s.expectedMatches p) with
  | some m =>
    let i : Fin 128 := Fin.ofNat 128 m.place
    match s.table.slots[i] with
    | some e => s.decideEntry rd i (e.writeLocal p)
    | none => s
  | none =>
    match s.freeSlot with
    | none => (s.bump .tableFull).settlePiece (some .queue) p.notice
    | some i =>
      match chooseMatch (s.escapeMatches p) with
      | some m =>
        match s.table.escapes[m.place]? with
        | some r =>
          ((s.dropEscape m.place).requestEscape ⟨r.station, r.tag, p.cls⟩).decideEntry rd i
            { p.entry with reports := [r.report], escapeSource := some (r.station, r.tag) }
        | none => s.decideEntry rd i p.entry
      | none => s.decideEntry rd i p.entry

/-! ### Peer reports (R50, R57 to R60, R69) -/

/-- A report joins the list of an entry (R50): of four the one whose sender has the smallest S leaves, of equals the one held
longest. -/
def joinReport (rs : List PeerReport) (r : PeerReport) : List PeerReport :=
  if rs.length < 3 then rs ++ [r]
  else
    match pickBest (fun y x => decide (y.1.s < x.1.s)) (rs ++ [r]).zipIdx with
    | some (_, k) => (rs ++ [r]).eraseIdx k
    | none => rs ++ [r]

/-- The steps the piece's lead had still to travel to this reference line (R57). -/
def State.dist (s : State) (r : ReceiveRecord) : Int := diff (BitVec.ofNat 24 s.opts.s) r.linepos

/-- The half-window of a report (R57). -/
def halfWindow (hb hd : Nat) (dist : Int) : Nat := min 1023 (hb + hd * (clampInt dist 0 65535).toNat / 1000)

/-- The report's own geometry at this station (R50, R57). -/
def ReceiveRecord.report (r : ReceiveRecord) (e : Count) : PeerReport :=
  ⟨r.station, r.s, r.tag, r.cls, r.verdict, r.area, r.flags, e, r.length, r.first, r.last, r.centroid⟩

/-- The expiry of an expected piece (R60, R69). -/
def State.expiry (s : State) (e : Count) (h length : Nat) : Count := shift e ((h + length + 2 * s.opts.r : Nat) : Int)

/-- The escape record of a report (R58, R69). -/
def State.escapeOf (s : State) (r : ReceiveRecord) (e : Count) (h : Nat) : EscapeRecord :=
  ⟨r.station, r.s, r.tag, r.cls, r.verdict, r.area, r.flags, r.first, r.last, r.centroid, e, h, r.length,
    s.expiry e h r.length⟩

/-- A record joins an escape list behind every record of earlier or equal E (R69). -/
def joinEscape (r : EscapeRecord) (rs : List EscapeRecord) : List EscapeRecord :=
  insertBehind (fun y x => isBefore x.e y.e) r rs

/-- A record is entered into the escape watch list (R69). -/
def State.watch (s : State) (r : EscapeRecord) : State :=
  if s.table.escapes.length < 32 then { s with table := { s.table with escapes := joinEscape r s.table.escapes } }
  else
    match s.table.escapes with
    | front :: rest =>
      if isBefore front.e r.e then
        { s with table := { s.table with escapes := joinEscape r rest } }.bump .escapeListOverflow
      else s.bump .escapeListOverflow
    | [] => s.bump .escapeListOverflow

/-- A new EXPECTED entry's geometry, report and expectation (R60). -/
def PeerReport.entry (r : PeerReport) (h : Nat) : Entry where
  state := .expected
  tag := none
  lead := r.lead
  trail := shift r.lead ((r.length : Int) - 1)
  first := r.first
  last := r.last
  centroid := r.centroid
  area := r.area
  own := none
  reports := [r]
  escapeSource := none
  expectation := some ⟨r.lead, h, decide (r.verdict = .trimmed)⟩
  deadline := none
  decision := none
  geomFlags := r.flags

/-- The blind decision point (R60). -/
def State.decisionPoint (s : State) (e : Count) : Count := shift e ((s.opts.o : Int) - (s.opts.pre : Int) - 512)

/-- A new EXPECTED entry is made from a report, or dropped at a full table; at a blind station it is decided at once when the
count read has reached the decision point (R60). -/
def State.expect (s : State) (rd : Reading) (r : PeerReport) (h : Nat) : State :=
  match s.freeSlot with
  | none => s.bump .tableFull
  | some i =>
    if s.opts.scan then s.setSlot i (some { r.entry h with deadline := some (s.expiry r.lead h r.length) })
    else
      let e := { r.entry h with tag := some s.former.tag }
      if reaches rd.count (s.decisionPoint r.lead) then s.drawTag.decideEntry rd i e
      else s.drawTag.setSlot i (some { e with deadline := some (s.decisionPoint r.lead) })

/-- A report joins an entry in use, a late one being counted (R59). -/
def State.joinEntry (s : State) (i : Fin 128) (r : PeerReport) : State :=
  match s.table.slots[i] with
  | some e =>
    let s' := s.setSlot i (some { e with reports := joinReport e.reports r })
    if e.state = .expected then s' else s'.bump .lateReport
  | none => s

/-- A receive record is taken (R57, R58, R59). -/
def State.serveReceived (s : State) (rd : Reading) (r : ReceiveRecord) : State :=
  let dist := s.dist r
  let h := halfWindow s.opts.hb s.opts.hd dist
  let e := shift r.latch dist
  if dist < -(h : Int) then s.bump .passedBy
  else
    match r.verdict with
    | .ejected | .removed | .carried => if s.opts.scan then s.watch (s.escapeOf r e h) else s
    | .passed | .denied | .late | .trimmed =>
      match chooseMatch (s.reportMatches (r.report e) h) with
      | some m => s.joinEntry (Fin.ofNat 128 m.place) (r.report e)
      | none => s.expect rd (r.report e) h

/-! ### Deadlines (R62 to R65, R70) -/

/-- The geometry of the chosen report replaces an entry's at its decision point (R64). -/
def Entry.takeGeometry (e : Entry) : Entry :=
  match chosenReport e.reports with
  | some r =>
    { e with
      lead := r.lead
      trail := shift r.lead ((r.length : Int) - 1)
      first := r.first
      last := r.last
      centroid := r.centroid
      area := r.area
      geomFlags := r.flags }
  | none => e

/-- An EXPECTED entry is served (R63, R64). -/
def State.serveExpected (s : State) (rd : Reading) (i : Fin 128) (e : Entry) : State :=
  if s.opts.scan then
    (s.bump (if (e.expectation.map Expectation.perhaps).getD false then .maybeUnseen else .expectedUnseen)).setSlot i none
  else s.decideEntry rd i e.takeGeometry

/-- A PASSING entry is served at its settle point (R65). -/
def State.servePassing (s : State) (i : Fin 128) (e : Entry) : State :=
  if s.gate.passage (shift e.lead (s.opts.o : Int)) (shift e.trail (s.opts.o : Int)) then s.settleEntry i e .carried none
  else s.settleEntry i e (s.passiveVerdict ((e.decision.map Decision.cls).getD .unknown)) none

/-- The deadline request is served: the earliest entry or record, whatever the count has become since the table took the
request (R62, R63, R64, R65, R70). -/
def State.serveDeadline (s : State) (rd : Reading) : State :=
  match s.earliest with
  | some (_, .escape k) => s.dropEscape k
  | some (_, .entry i) =>
    match s.table.slots[i] with
    | some e => if e.state = .expected then s.serveExpected rd i e else s.servePassing i e
    | none => s
  | none => s

/-! ### Outlet reports (R52) -/

/-- The grant and window flags of a report are written to an entry's decision (R52, R88). -/
def Entry.writeGrant (e : Entry) (granted : LaneSet) (flags : WindowFlags) : Entry :=
  { e with state := .acting, decision := e.decision.map fun d => { d with granted := granted, flags := flags } }

/-- The window flags at the end are written to an entry's decision (R52). -/
def Entry.writeFlags (e : Entry) (flags : WindowFlags) : Entry :=
  { e with decision := e.decision.map fun d => { d with flags := flags } }

/-- An outlet report is served (R52). -/
def State.serveReport (s : State) (r : OutletReport) : State :=
  match r with
  | .opened i granted flags =>
    match s.table.slots[i] with
    | some e => s.setSlot i (some (e.writeGrant granted flags))
    | none => s
  | .settled i v cause flags =>
    match s.table.slots[i] with
    | some e => s.settleEntry i (e.writeFlags flags) v cause
    | none => s

/-! ### The arbiter (R51) -/

/-- The request a claimant has first. -/
def State.frontRequest (s : State) : Claimant → Option TableRequest
  | .report => s.table.reports.head?.map TableRequest.report
  | .localPiece => s.former.queue.head?.map TableRequest.localPiece
  | .received => s.rxQueue.head?.map TableRequest.received
  | .deadline => if s.deadlineStands then some .deadline else none

/-- A claimant's first record leaves its queue as the table takes it (R51). -/
def State.popRequest (s : State) (c : Claimant) : State :=
  let s := { s with table := { s.table with tied := .none } }
  match c with
  | .report => { s with table := { s.table with reports := s.table.reports.drop 1 } }
  | .localPiece => { s with former := { s.former with queue := s.former.queue.drop 1 } }
  | .received => { s with rxQueue := s.rxQueue.drop 1 }
  | .deadline => s

/-- The claimant of a request (R51). -/
def TableRequest.claimant : TableRequest → Claimant
  | .report _ => .report
  | .localPiece _ => .localPiece
  | .received _ => .received
  | .deadline => .deadline

/-- The request in flight is replaced, or ends its flight. -/
def State.setFlight (s : State) (f : Option Flight) : State := { s with table := { s.table with inFlight := f } }

/-- The table takes a claimant's request and holds it in flight, with the readings its decision has made (R51). A deadline
request is tested here, and not again when it is served (R62). -/
def State.startRequest (s : State) (c : Claimant) (rd : Option Reading) : State :=
  if s.mayTake c then
    match s.frontRequest c with
    | some r => (s.popRequest c).setFlight (some ⟨r, rd⟩)
    | none => s
  else s

/-- A claimant's request makes the readings of its decision now and stays in flight: a request in flight that has made none,
or else the one the table may take (R75, R86, log 29). -/
def State.callAhead (s : State) (c : Claimant) : State :=
  match s.table.inFlight with
  | some ⟨r, none⟩ => if r.claimant = c then s.setFlight (some ⟨r, some s.reading⟩) else s
  | some ⟨_, some _⟩ => s
  | none => s.startRequest c (some s.reading)

/-- What is in flight across an encoder edge makes its readings before the edge (R86). -/
def State.readAhead (s : State) : Option Claimant → State
  | some c => s.callAhead c
  | none => s

/-- The request in flight, or else the claimant's next one that the table may take, if the test holds of it, with the state
in which it has been taken and has ended its flight (R51, log 6). -/
def State.takeRequest (s : State) (c : Claimant) (test : TableRequest → Bool) : Option (Flight × State) :=
  match s.table.inFlight with
  | some f => if test f.request then some (f, s.setFlight none) else none
  | none =>
    if s.mayTake c then
      match s.frontRequest c with
      | some r => if test r then some (⟨r, none⟩, s.popRequest c) else none
      | none => none
    else none

/-- A request is served whole, its decision by the readings given (R51, R75). -/
def State.serve (s : State) (rd : Reading) : TableRequest → State
  | .report r => s.serveReport r
  | .localPiece p => s.serveLocal rd p
  | .received r => s.serveReceived rd r
  | .deadline => s.serveDeadline rd

/-- One request of a claimant is taken and served, by the readings made ahead of it or those of now; if the table may not take
such a request now, nothing happens. -/
def State.request (s : State) (c : Claimant) (test : TableRequest → Bool) : State :=
  match s.takeRequest c test with
  | some (f, s') => s'.serve (f.reading.getD s'.reading) f.request
  | none => s

/-! ### Commands -/

/-- The request is an OPENED report. -/
def TableRequest.isOpened : TableRequest → Bool
  | .report (.opened ..) => true
  | _ => false

/-- The request is a SETTLED report. -/
def TableRequest.isSettled : TableRequest → Bool
  | .report (.settled ..) => true
  | _ => false

/-- The request is one of a claimant. -/
def TableRequest.isOf (c : Claimant) (r : TableRequest) : Bool := decide (r.claimant = c)

/-- OPENED (R52). -/
def execOpened (l : Lapse) (s : State) : Out := event l (fun s => s.request .report TableRequest.isOpened) s

/-- SETTLED (R52, R66). -/
def execSettled (l : Lapse) (s : State) : Out := event l (fun s => s.request .report TableRequest.isSettled) s

/-- LOCAL_PIECE (R54, R55, R56). -/
def execLocalPiece (l : Lapse) (s : State) : Out := event l (fun s => s.request .localPiece (TableRequest.isOf .localPiece)) s

/-- RECEIVE_RECORD (R57 to R60, R69). -/
def execReceiveRecord (l : Lapse) (s : State) : Out := event l (fun s => s.request .received (TableRequest.isOf .received)) s

/-- DEADLINE_REQUEST (R62 to R65, R70). -/
def execDeadlineRequest (l : Lapse) (s : State) : Out := event l (fun s => s.request .deadline (TableRequest.isOf .deadline)) s

end Sys2Proof.Machine
end

