-- ==== Sys2Proof/Machine/Belt.lean ====
section
/-! DEFINITION. The belt tracker: edges, steps, the timestamp ring, the speed figure and the row test; the commands ENCODER_EDGE and STEP_SILENCE_EXPIRY. -/

namespace Sys2Proof.Machine

/-- What the quadrature decoder makes of an accepted pair (R1). -/
inductive Edge where
  | same
  | forward
  | backward
  | illegal
  deriving DecidableEq, Repr

/-- The place of a pair in the forward order 00, 10, 11, 01 (R1). -/
def pairPlace (a b : Bool) : Nat :=
  match a, b with
  | false, false => 0
  | true, false => 1
  | true, true => 2
  | false, true => 3

/-- The edge from the reference pair (a, b) to the new pair (a', b') (R1). -/
def edgeOf (a b a' b' : Bool) : Edge :=
  match (pairPlace a' b' + 4 - pairPlace a b) % 4 with
  | 0 => .same
  | 1 => .forward
  | 2 => .illegal
  | _ => .backward

/-- The time from the origin to the newest timestamp (R7). -/
def Belt.delta (b : Belt) : Nat := sinceTime (b.ring.getLast?.getD 0) (b.origin.getD 0)

/-- The speed figure of a ring of n timestamps that span dt µs (R8). -/
def speedFigure (n dt : Nat) : Nat := if 8 ≤ n then max 4000 (min noSpeed (dt * 64 / n)) else noSpeed

/-- A timestamp is added; the oldest of a full ring becomes the origin (R7). -/
def Belt.stamp (b : Belt) (now : TimeBase) : Belt :=
  if b.ring.length < 64 then { b with ring := b.ring ++ [now] }
  else { b with origin := b.ring.head?.orElse fun _ => b.origin, ring := b.ring.drop 1 ++ [now] }

/-- A forward step (R2, R6, R7, R8), but for its row test. -/
def Belt.forwardStep (b : Belt) (now : TimeBase) : Belt :=
  let b := { b with sub := 0, count := b.count + 1, silence := some 0 }
  match b.state with
  | .stopped | .reversing =>
    { b with ring := [], origin := some now, t64 := noSpeed, state := .unsettled }
  | .unsettled | .moving =>
    let b := b.stamp now
    { b with
      t64 := speedFigure b.ring.length b.delta
      state := if b.state = .unsettled ∧ b.ring.length < 8 then .unsettled else .moving }

/-- A backward step (R2, R5). -/
def Belt.backwardStep (p : Nat) (b : Belt) : Belt :=
  { b with sub := p - 1, count := b.count - 1, silence := some 0, state := .reversing, t64 := noSpeed }

/-- The row test at a forward step (R10). -/
def Belt.rowDue (r : Nat) (b : Belt) : Bool :=
  match b.lastRow with
  | none => true
  | some k => reaches b.count (shift k (r : Int))

/-- The row test, and the trigger it hands to the scan unit (R10, R11). -/
def State.rowTest (s : State) : State :=
  if s.belt.rowDue s.opts.r then State.trigger { s with belt := { s.belt with lastRow := some s.belt.count } } s.belt.count
  else s

/-- A forward step, with what the tracker hands on: the row trigger, then the step to the outlets (R11). -/
def State.stepForward (s : State) : State :=
  let s' := State.rowTest { s with belt := s.belt.forwardStep s.timeBase }
  s'.outletStep (decide (s'.belt.state = .moving) && decide (s.belt.state ≠ .moving))

/-- A forward or backward edge in the sub-count (R2), or an illegal transition (R1). -/
def State.takeEdge (s : State) (e : Edge) : State :=
  match e with
  | .same => s
  | .forward =>
    if s.opts.p ≤ s.belt.sub + 1 then s.stepForward else { s with belt := { s.belt with sub := s.belt.sub + 1 } }
  | .backward =>
    if s.belt.sub = 0 then { s with belt := s.belt.backwardStep s.opts.p }
    else { s with belt := { s.belt with sub := s.belt.sub - 1 } }
  | .illegal => s.bump .encoderFault

/-- An accepted pair becomes the reference, and its edge is taken (R1). -/
def State.encoderEdge (s : State) (a b : Bool) : State :=
  State.takeEdge { s with belt := { s.belt with encA := a, encB := b } } (edgeOf s.belt.encA s.belt.encB a b)

/-- The limit of the step silence timer, µs (R4). -/
def silenceLimit : Nat := 100000

/-- The step silence timer expires, once it has run its limit; an expiry in STOPPED has no effect (R4). -/
def State.silenceExpiry (s : State) : State :=
  match s.belt.silence with
  | some t =>
    if t < silenceLimit then s
    else if s.belt.state = .stopped then { s with belt := { s.belt with silence := none } }
    else { s with belt := { s.belt with silence := none, state := .stopped, t64 := noSpeed } }.bump .stops
  | none => s

/-- ENCODER_EDGE (R1, R2, R4 to R8, R10, R11), with the readings that a request in flight makes before it (R86). -/
def execEncoderEdge (l : EdgeLapse) (a b : Bool) (s : State) : Out :=
  event l.lapse (fun s => (s.readAhead l.between).encoderEdge a b) s

/-- STEP_SILENCE_EXPIRY (R4). -/
def execStepSilenceExpiry (l : Lapse) (s : State) : Out := event l State.silenceExpiry s

end Sys2Proof.Machine
end

