-- ==== Sys2Proof/Machine/Former.lean ====
section
/-! DEFINITION. The piece former: runs, contact and groups, joining, merging and opening, running sums, closing, classification, the piece record and the local piece queue; the command ROW_RECORD. -/

namespace Sys2Proof.Machine

/-! ### Runs and groups (R34, R35) -/

/-- The runs of occupied cells from lane n on; start is the lane at which an open run began (R34). -/
def runsFrom : List Bool → Nat → Option Nat → List LaneRun
  | [], n, some a => [⟨a, n - 1⟩]
  | [], _, none => []
  | true :: rest, n, some a => runsFrom rest (n + 1) (some a)
  | true :: rest, n, none => runsFrom rest (n + 1) (some n)
  | false :: rest, n, some a => ⟨a, n - 1⟩ :: runsFrom rest (n + 1) none
  | false :: rest, n, none => runsFrom rest (n + 1) none

/-- The runs of a row in lane order (R34). -/
def runsOf (r : RowRecord) : List LaneRun := runsFrom (r.cells.toList.map Cell.occupied) 0 none

/-- A run contacts an earlier run (R35). -/
def LaneRun.contacts (r e : LaneRun) : Bool := decide (r.lo ≤ e.hi + 1) && decide (e.lo ≤ r.hi + 1)

/-- A run contacts a holder's runs of the previous row (R35). -/
def LaneRun.contactsAny (r : LaneRun) (held : List LaneRun) : Bool := held.any fun e => r.contacts e

/-- A group contacts a holder when one of its runs does (R35). -/
def touches (g held : List LaneRun) : Bool := g.any fun r => r.contactsAny held

/-- Two runs contact one holder (R35). -/
def linked (holders : List (List LaneRun)) (r r' : LaneRun) : Bool :=
  holders.any fun held => r.contactsAny held && r'.contactsAny held

/-- The runs of a row that are among g, or share a holder with a run of g (R35). -/
def widenGroup (runs : List LaneRun) (holders : List (List LaneRun)) (g : List LaneRun) : List LaneRun :=
  runs.filter fun r => g.any fun r' => decide (r = r') || linked holders r r'

/-- The group of a run, in lane order: the runs that a chain of shared holders leads to, no chain being longer than the row's
number of runs (R35). -/
def groupOf (runs : List LaneRun) (holders : List (List LaneRun)) (r : LaneRun) : List LaneRun :=
  runs.foldl (fun g _ => widenGroup runs holders g) [r]

/-- The groups of a row's runs, each named by its first run, so that they stand in the order of their lowest lanes (R35,
R37). -/
def groupsOf (runs : List LaneRun) (holders : List (List LaneRun)) : List (List LaneRun) :=
  (runs.filter fun r => (groupOf runs holders r).head? = some r).map (groupOf runs holders)

/-! ### Joining, merging, opening (R36, R37) and the sums (R38) -/

/-- The place of the survivor of the pieces that a group contacts (R36): the earliest lead, and of equals the one opened
first. -/
def survivorOf (pieces : List OpenPiece) (g : List LaneRun) : Option Nat :=
  (pickBest (fun y x => isBefore y.1.lead x.1.lead) (pieces.zipIdx.filter fun p => touches g p.1.runs)).map Prod.snd

/-- The survivor takes another merged piece's sums and marks (R36). -/
def OpenPiece.takeOver (a b : OpenPiece) : OpenPiece :=
  { a with
    n := a.n + b.n
    nc := a.nc + b.nc
    sumI := a.sumI + b.sumI
    sumQ := a.sumQ + b.sumQ
    sumLane := a.sumLane + b.sumLane
    first := min a.first b.first
    last := max a.last b.last
    edge := a.edge || b.edge
    continued := a.continued || b.continued
    coilMark := a.coilMark || b.coilMark
    curtainMark := a.curtainMark || b.curtainMark }

/-- The lanes of a list of runs. -/
def lanesOf (runs : List LaneRun) : List (Fin 32) :=
  (List.finRange 32).filter fun i => runs.any fun r => decide (r.lo ≤ i.val) && decide (i.val ≤ r.hi)

/-- The row is added to a piece that has gained runs in it (R38). -/
def OpenPiece.addRow (p : OpenPiece) (row : RowRecord) (runs : List LaneRun) : OpenPiece :=
  let lanes := lanesOf runs
  { p with
    lastRow := row.row
    n := p.n + lanes.length
    nc := p.nc + lanes.countP fun i => row.cells[i].blocked
    sumI := lanes.foldl (fun a i => a + row.cells[i].ic) p.sumI
    sumQ := lanes.foldl (fun a i => a + row.cells[i].qc) p.sumQ
    sumLane := lanes.foldl (fun a i => a + i.val) p.sumLane
    first := lanes.foldl (fun a i => min a i.val) p.first
    last := lanes.foldl (fun a i => max a i.val) p.last
    rows := p.rows + 1
    repeated := p.repeated + bit row.repeated
    coilMark := p.coilMark || row.coilWeak
    curtainMark := p.curtainMark || row.curtainFault
    edge := p.edge || lanes.any fun i => decide (i.val = 0) || decide (i.val = 31)
    runs := runs }

/-- A new piece before its first row is added (R37). -/
def newPiece (tag : Tag) (row : Count) (continued : Bool) : OpenPiece where
  tag := tag
  lead := row
  lastRow := row
  n := 0
  nc := 0
  sumI := 0
  sumQ := 0
  sumLane := 0
  first := 31
  last := 0
  rows := 0
  repeated := 0
  coilMark := false
  curtainMark := false
  edge := false
  continued := continued
  runs := []

/-- What becomes of the open piece at a place: it survives a group and gains the row, ceases to exist in a merge, or gains
no run and closes (R36, R39). -/
inductive PieceFate where
  | gains (p : OpenPiece)
  | merged
  | ends (p : OpenPiece)
  deriving DecidableEq, Repr

/-- A group contacts a LONG predecessor (R35). -/
def Former.afterLong (f : Former) (g : List LaneRun) : Bool := f.longRuns.any (touches g)

/-- The fate of the open piece p at place k (R36, R38, R39). -/
def Former.fateOf (f : Former) (row : RowRecord) (groups : List (List LaneRun)) (p : OpenPiece) (k : Nat) : PieceFate :=
  match groups.find? fun g => touches g p.runs with
  | none => .ends p
  | some g =>
    if survivorOf f.pieces g = some k then
      let others := (f.pieces.zipIdx.filter fun q => touches g q.1.runs && !(q.2 == k)).map Prod.fst
      let merged := others.foldl OpenPiece.takeOver p
      .gains (({ merged with continued := merged.continued || f.afterLong g }).addRow row g)
    else .merged

/-- The pieces a row opens, one for each group that contacts no open piece, in order and with the next tags (R37, R41). -/
def Former.opened (f : Former) (row : RowRecord) (groups : List (List LaneRun)) : List OpenPiece :=
  (groups.filter fun g => !f.pieces.any fun p => touches g p.runs).zipIdx.map fun (g, k) =>
    (newPiece (f.tag + BitVec.ofNat 12 k) row.row (f.afterLong g)).addRow row g

/-! ### Classification and the record (R42, R43, R44) -/

/-- The density (R43). -/
def density (sumI sumQ : Int) (n : Nat) : Nat := min 65535 ((sumI.natAbs + sumQ.natAbs) / n)

/-- The class of a closed piece whose sums are trusted (R43). -/
def classBySums (tMetal : Nat) (sumI sumQ : Int) (n : Nat) : PieceClass :=
  if density sumI sumQ n < tMetal then .inert
  else if 0 < sumI then if (sumQ.natAbs : Int) ≤ sumI then .ferrous else .steelLow
  else if 2 * sumQ.natAbs ≤ sumI.natAbs then .nonferrous else .board

/-- The class of a closed piece (R42, R43). -/
def OpenPiece.classify (p : OpenPiece) (tMetal : Nat) : PieceClass :=
  if p.coilMark ∨ p.rows < 2 * p.repeated then .unknown else classBySums tMetal p.sumI p.sumQ p.n

/-- The rows count at which a piece closes LONG (R40). -/
def longRows : Nat := 255

/-- The record of a closed piece (R39, R40, R44). -/
def OpenPiece.record (p : OpenPiece) (r tMetal : Nat) (long : Bool) : PieceRecord where
  tag := p.tag
  lead := p.lead
  trail := shift p.lastRow ((r : Int) - 1)
  first := p.first
  last := p.last
  centroid := (p.sumLane + p.n / 2) / p.n
  n := p.n
  nc := p.nc
  sumI := p.sumI
  sumQ := p.sumQ
  cls := p.classify tMetal
  flags := ⟨long, p.continued, p.edge, decide (p.nc = 0) && !p.curtainMark⟩

/-! ### The row (R33, R39, R40, R45) -/

/-- The lowest lane of a list of runs. -/
def lowestLane (rs : List LaneRun) : Nat := rs.foldl (fun a r => min a r.lo) 32

/-- The pieces that close at a row, in the order in which they are offered: earliest lead first, then lowest lane in the
last row they gained (R39). -/
def closingOrder (ps : List (OpenPiece × Bool)) : List (OpenPiece × Bool) :=
  sortStable (fun y x => isBefore x.1.lead y.1.lead ||
    (decide (x.1.lead = y.1.lead) && decide (lowestLane x.1.runs < lowestLane y.1.runs))) ps

/-- A closed record is offered to the local piece queue (R45). -/
def State.offerPiece (s : State) (p : PieceRecord) : State :=
  if s.former.queue.length < 4 then { s with former := { s.former with queue := s.former.queue ++ [p] } }
  else s.bump .pieceDropped

/-- A row record is taken whole (R33 to R40): the records of the pieces that close at it stand in the order of their offers. -/
def State.takeRow (s : State) (row : RowRecord) : State :=
  let f := s.former
  let groups := groupsOf (runsOf row) (f.pieces.map OpenPiece.runs ++ f.longRuns)
  let fates := f.pieces.zipIdx.map fun (p, k) => f.fateOf row groups p k
  let gained := fates.filterMap fun x =>
    match x with
    | .gains p => some p
    | .merged | .ends _ => none
  let ended := fates.filterMap fun x =>
    match x with
    | .ends p => some (p, false)
    | .merged | .gains _ => none
  let opened := f.opened row groups
  let all := gained ++ opened
  let long := all.filter fun p => decide (longRows ≤ p.rows)
  { s with
    former := { f with
      pieces := all.filter fun p => !decide (longRows ≤ p.rows)
      longRuns := long.map OpenPiece.runs
      tag := f.tag + BitVec.ofNat 12 opened.length
      offers := (closingOrder (ended ++ long.map fun p => (p, true))).map fun p =>
        p.1.record s.opts.r s.opts.tMetal p.2 } }

/-- The records of the row are offered one after another, but for the last ones that are left to a later ROW_RECORD (R45,
log 28). -/
def State.makeOffers (s : State) (left : Nat) : State :=
  let n := s.former.offers.length - left
  (s.former.offers.take n).foldl State.offerPiece
    { s with former := { s.former with offers := s.former.offers.drop n } }

/-- The former goes on with the offers of the row it has taken, or takes the oldest delivered row, if one waits (R33, R45). -/
def State.nextRow (s : State) (left : Nat) : State :=
  match s.former.offers, s.former.rows with
  | [], row :: rest => (State.takeRow { s with former := { s.former with rows := rest } } row).makeOffers left
  | _, _ => s.makeOffers left

/-- ROW_RECORD (R33, R45). -/
def execRowRecord (l : RowLapse) (s : State) : Out := event l.lapse (fun s => s.nextRow l.left) s

end Sys2Proof.Machine
end

