-- ==== Sys2Proof/Machine/Link.lean ====
section
/-! DEFINITION. The line link's own frames and the line's condition: the commands BUS_FREE, START_EDGE, ARBITRATION_LOST, LATCH_COUNT, BIT_ERROR, BREAK_END, TRANSMIT_COMPLETION, LINE_FAULT, LINE_FAULT_END and FRAME_DISCARD. -/

namespace Sys2Proof.Machine

/-! ### The start of a frame (R127, R131) -/

/-- The idle count before a start edge from which a link in IDLE accepts it, 11 bit times (R131). -/
def listenCount : Nat := 176

/-- One sample of the line, true recessive (R126, R131, R139). -/
def Link.sample (k : Link) (recessive : Bool) : Link := k.count (if recessive then .recessive else .dominant) 1

/-- Samples 0..9 of a start bit are read (R127), ahead of the lapse that holds their time (log 22). -/
def Link.readSamples (k : Link) (samples : BitVec 10) : Link :=
  (List.range 10).foldl (fun k i => k.sample (samples.getLsbD i)) { k with ahead := k.ahead + 10 }

/-- The start bit that samples 7, 8 and 9 give reads dominant (R127). -/
def startBitGood (samples : BitVec 10) : Bool := !majority (samples.extractLsb' 7 3)

/-- The first sample is a start edge: it reads dominant after a recessive one (R127). -/
def Link.seesEdge (k : Link) (samples : BitVec 10) : Bool := !samples.getLsbD 0 && decide (0 < k.idle)

/-- A start edge at a link that looks for the start of a frame: a frame begins, or the edge is too early or a glitch (R127,
R131). -/
def Link.startEdge (k : Link) (samples : BitVec 10) : Link :=
  if k.state = .idle ∧ k.seesEdge samples = true then
    let k' := k.readSamples samples
    if listenCount ≤ k.idle ∧ startBitGood samples = true then { k' with state := .receiving, arbRead := [], latch := none }
    else k'
  else k

/-! ### Arbitration and the latch (R133, R134) -/

/-- Data bit k of the ARB byte of the attempt, the first sent being k = 0 (R128, R133). -/
def Link.arbBit (k : Link) (n : Fin 8) : Bool :=
  match k.frame with
  | some f => f.arb.getLsbD (7 - n.val)
  | none => false

/-- The ARB data bits sampled when arbitration is lost at bit n: those before it as they were sent, and bit n dominant (R133). -/
def Link.sampledArb (k : Link) (n : Fin 8) : List Bool :=
  ((k.frame.map TxFrame.bits).getD []).extract 1 (n.val + 1) ++ [false]

/-- Arbitration is lost at an ARB data bit sent recessive: the bits sampled are kept (R133, R138). -/
def Link.lose (k : Link) (n : Fin 8) : Link :=
  if k.state = .arbitrating ∧ k.arbBit n = true then
    { k.keepAttempted with
      state := .receiving, frame := none, arbTime := none, arbRead := k.sampledArb n, latch := none }
  else k

/-- The notice of the attempt (R132). -/
def Link.attempted (k : Link) : Option Notice := k.queue.find? Notice.attempted

/-- The frame of a won attempt, with the line position of a PIECE filled from the latch count (R134, R149). -/
def Link.filledFrame (k : Link) (s : Nat) (count : Count) : Option TxFrame :=
  match k.attempted, k.frame with
  | some ⟨_, .piece p, _⟩, some f => some { f with payload := piecePayload p (linePosition s count p.lead) }
  | _, f => f

/-- The stop bit of the ARB byte is decided (R134): the count is latched. A sender that reaches it has won (R133, log 8), and
its PIECE takes its line position. -/
def Link.latchCount (k : Link) (s : Nat) (count : Count) : Link :=
  match k.latch, k.state with
  | none, .arbitrating | none, .sending => { k.win with latch := some count, frame := k.filledFrame s count }
  | none, .receiving => { k with latch := some count }
  | _, _ => k

/-! ### Ends of an attempt (R137, R138) -/

/-- The bit of the frame at which an attempt breaks: in ARBITRATING the start bit or an ARB data bit sent dominant; in
SENDING, which a sender that reaches the ARB stop bit has entered (log 8), any bit from the ARB stop bit on (R133, R137). -/
def Link.mayBreak (k : Link) (bit : Nat) : Bool :=
  match k.state, k.frame with
  | .arbitrating, some f => decide (bit < f.bits.length) && (decide (9 ≤ bit) || !f.bits.getD bit true)
  | .sending, some f => decide (bit < f.bits.length) && decide (9 ≤ bit)
  | _, _ => false

/-- A BIT error (R137): the break begins and the notice is discarded. -/
def State.bitError (s : State) (bit : Nat) : State :=
  if s.link.mayBreak bit then
    { s with
      link := { Link.dropAttempted s.station.number s.link with
        state := .breaking, frame := none, arbTime := none, latch := none, breakTime := some 0 } }.bump .txBit
  else s

/-- The length of a break, bit times (R137). -/
def breakBits : Nat := 14

/-- The end of a break, once it has run its length (R137). -/
def Link.breakEnd (rate : Nat) (k : Link) : Link :=
  match k.state, k.breakTime with
  | .breaking, some t => if breakBits * bitUs rate ≤ t then { k with state := .idle, breakTime := none } else k
  | _, _ => k

/-- A frame has been sent to its end (R138). -/
def Link.complete (number : Fin 16) (k : Link) : Link :=
  match k.state, k.latch with
  | .sending, some _ => { Link.dropAttempted number k with state := .idle, frame := none, latch := none }
  | _, _ => k

/-! ### Stuck line (R139) -/

/-- The dominant count at which the line is stuck: one sample past 32 bit times (R139). -/
def stuckCount : Nat := 513

/-- The link enters LINE-FAULT, once the line has been dominant for so long (R139). -/
def State.lineStuck (s : State) : State :=
  if s.link.state ≠ .lineFault ∧ stuckCount ≤ s.link.dominant then
    { s with
      link := { s.link.keepAttempted with
        state := .lineFault, frame := none, arbTime := none, arbRead := [], latch := none, breakTime := none } }.bump .lineFaults
  else s

/-- The idle count at which a LINE-FAULT ends, 128 bit times (R139). -/
def clearCount : Nat := 2048

/-- The link leaves LINE-FAULT, once the line has been recessive for so long (R139). -/
def Link.lineClear (k : Link) : Link :=
  if k.state = .lineFault ∧ clearCount ≤ k.idle then { k with state := .idle, idle := 0 } else k

/-! ### A discarded frame (R135) -/

/-- The frame being received is discarded at the first failure of what has been read (R135). -/
def State.discardFrame (s : State) (rx : List LineByte) : State :=
  if s.link.state = .receiving then
    match receive (s.link.reads rx) [] with
    | .discarded e => { s with link := { s.link with state := .idle, arbRead := [], latch := none } }.bump e.counter
    | .incomplete | .valid .. => s
  else s

/-- The link alone is changed by an operation. -/
def State.onLink (s : State) (f : Link → Link) : State := { s with link := f s.link }

/-! ### Commands -/

/-- BUS_FREE (R131, R132). -/
def execBusFree (l : Lapse) (s : State) : Out := event l State.attempt s

/-- START_EDGE (R127, R131). -/
def execStartEdge (l : Lapse) (samples : BitVec 10) (s : State) : Out :=
  event l (fun s => s.onLink fun k => k.startEdge samples) s

/-- ARBITRATION_LOST (R133, R138). -/
def execArbitrationLost (l : Lapse) (k : Fin 8) (s : State) : Out := event l (fun s => s.onLink fun x => x.lose k) s

/-- LATCH_COUNT (R134, R149). -/
def execLatchCount (l : Lapse) (s : State) : Out :=
  event l (fun s => s.onLink fun k => k.latchCount s.opts.s s.belt.count) s

/-- BIT_ERROR (R133, R137, R138). -/
def execBitError (l : Lapse) (bit : Nat) (s : State) : Out := event l (fun s => s.bitError bit) s

/-- BREAK_END (R137). -/
def execBreakEnd (l : Lapse) (s : State) : Out := event l (fun s => s.onLink (Link.breakEnd s.opts.rate)) s

/-- TRANSMIT_COMPLETION (R138). -/
def execTransmitCompletion (l : Lapse) (s : State) : Out :=
  event l (fun s => s.onLink (Link.complete s.station.number)) s

/-- LINE_FAULT (R139). -/
def execLineFault (l : Lapse) (s : State) : Out := event l State.lineStuck s

/-- LINE_FAULT_END (R139). -/
def execLineFaultEnd (l : Lapse) (s : State) : Out := event l (fun s => s.onLink Link.lineClear) s

/-- FRAME_DISCARD (R135). -/
def execFrameDiscard (l : Lapse) (rx : List LineByte) (s : State) : Out := event l (fun s => s.discardFrame rx) s

end Sys2Proof.Machine
end

