-- ==== Sys2Proof/Machine/OutletEvents.lean ====
section
/-! DEFINITION. Lanes and gate between the belt's steps: the commands MAX_ON_TRIP, COOLING_END, TEST_LANE_END, SWITCH_EVENT and TRAVEL_TIMEOUT. -/

namespace Sys2Proof.Machine

/-- T_on_max in µs (R103). -/
def Options.onLimit (o : Options) : Nat := 1000 * o.tOnMax

/-- The record of a lane that has tripped at a time (R103), its opened-at time dropped (DESIGN CHOICE, log 26). -/
def Lane.tripped (o : Options) (now : TimeBase) : Lane :=
  { Lane.afterReset with state := .cooling, coolUntil := some (now + BitVec.ofNat 32 o.onLimit) }

/-- An OPEN lane has been open for T_on_max (R103). -/
def State.tripDue (s : State) (n : Fin 32) : Bool :=
  let l := s.outlets.lanes[n]
  decide (l.state = .opened) &&
    match l.openedAt with
    | some t => decide (s.opts.onLimit ≤ sinceTime s.timeBase t)
    | none => false

/-- The max-on trip of a lane, if it is due (R103). -/
def State.tripLane (s : State) (n : Fin 32) : State :=
  if s.tripDue n then (s.takeLane n (Lane.tripped s.opts s.timeBase)).bump .maxOnTrip else s

/-- A COOLING lane has reached its cool-until time (R104, log 16). -/
def State.coolDue (s : State) (n : Fin 32) : Bool :=
  let l := s.outlets.lanes[n]
  decide (l.state = .cooling) &&
    match l.coolUntil with
    | some t => decide (sinceTime s.timeBase t < 2 ^ 31)
    | none => false

/-- The end of cooling of a lane, if it is due (R104), its cool-until time dropped (DESIGN CHOICE, log 26). -/
def State.endCooling (s : State) (n : Fin 32) : State := if s.coolDue n then s.setLane n .afterReset else s

/-- The length of a test lane, µs (R107). -/
def testLimit : Nat := 50000

/-- A lane's test lane has run 50 ms (R107). -/
def State.testDue (s : State) (n : Fin 32) : Bool :=
  match s.outlets.lanes[n].test with
  | some t => decide (testLimit ≤ t)
  | none => false

/-- The 50 ms end of a test lane, if it is due (R107). -/
def State.endTestLane (s : State) (n : Fin 32) : State :=
  if s.testDue n then s.setLane n s.outlets.lanes[n].endTest else s

/-- The accepted level of a feedback input (R112). -/
def Gate.level (g : Gate) : GateSwitch → Bool
  | .rest => g.swRest
  | .div => g.swDiv

/-- A new accepted level of a feedback input (R112). -/
def Gate.accept (g : Gate) (sw : GateSwitch) (high : Bool) : Gate :=
  match sw with
  | .rest => { g with swRest := high }
  | .div => { g with swDiv := high }

/-- The gate acts on the levels after a switch event (R115, R120, R121). -/
def State.switched (s : State) : State :=
  if s.gate.bothClosed then
    match s.gate.state with
    | .fault => s.bump .gateFault
    | .rest | .movingOut | .divert | .movingBack => s.enterGateFault
  else
    match s.gate.state with
    | .movingOut => if s.gate.atDivert then { s with gate := { s.gate with state := .divert, travel := none } } else s
    | .movingBack => if s.gate.atRest then { s with gate := { s.gate with state := .rest, travel := none } } else s
    | .fault => if s.gate.atRest then { s with gate := { s.gate with state := .rest } } else s
    | .rest | .divert => s

/-- A switch event (R112, R115): a changed level on a GATE station. On other stations the switches are not read. -/
def State.switchEvent (s : State) (sw : GateSwitch) (high : Bool) : State :=
  if s.opts.kind = .gate ∧ s.gate.level sw ≠ high then State.switched { s with gate := s.gate.accept sw high } else s

/-- The travel timer has reached its limit in a moving gate (R116). -/
def State.travelDue (s : State) : Bool :=
  (decide (s.gate.state = .movingOut) || decide (s.gate.state = .movingBack)) &&
    match s.gate.travel with
    | some t => decide (travelLimit s.opts.d ≤ t)
    | none => false

/-- The travel timeout, if it is due (R116, R120). -/
def State.travelTimeout (s : State) : State := if s.travelDue then s.enterGateFault else s

/-- MAX_ON_TRIP (R103). -/
def execMaxOnTrip (l : Lapse) (lane : Fin 32) (s : State) : Out := event l (fun s => s.tripLane lane) s

/-- COOLING_END (R104). -/
def execCoolingEnd (l : Lapse) (lane : Fin 32) (s : State) : Out := event l (fun s => s.endCooling lane) s

/-- TEST_LANE_END (R107). -/
def execTestLaneEnd (l : Lapse) (lane : Fin 32) (s : State) : Out := event l (fun s => s.endTestLane lane) s

/-- SWITCH_EVENT (R115, R120, R121). -/
def execSwitchEvent (l : Lapse) (sw : GateSwitch) (high : Bool) (s : State) : Out :=
  event l (fun s => s.switchEvent sw high) s

/-- TRAVEL_TIMEOUT (R116, R120). -/
def execTravelTimeout (l : Lapse) (s : State) : Out := event l State.travelTimeout s

end Sys2Proof.Machine
end

