-- ==== Sys2Proof/Machine/Reset.lean ====
section
/-! DEFINITION. The reset logic: assertion of reset, the start interval and the values at its end; the commands POWER_ON, CORE_SUPPLY_DROP, RESET_PIN, OPTION_WRITE_COMPLETED, SUPPLY_RISE, RESET_PIN_HIGH and RESET_END. -/

namespace Sys2Proof.Machine

/-- The bytes of a store whose write is abandoned after k bytes (R180). -/
def partlyWritten (old : Vector Byte 48) (new : Vector Byte 47) (k : Nat) : Vector Byte 48 :=
  Vector.ofFn fun i => if i.val < k then (blockOf new)[i] else old[i]

/-- The store when a write in progress is abandoned after k bytes; its mark stays clear (R180). -/
def Store.abandon (k : Nat) (st : Store) : Store :=
  match st.writing with
  | some new => { st with bytes := partlyWritten st.bytes new k, writing := none }
  | none => st

/-- A reset is asserted by a source that sets the cause flags so and leaves the sources acting so (R181, R182). Every block
abandons its work; what the blocks hold meanwhile is the model's, log 12. The number of bytes an abandoned option write has
written is free, log 11. -/
def State.assertReset (s : State) (causes : Causes) (supplyLow pinLow : Bool) : State :=
  { State.reset with
    pending := s.pending
    link := { Link.afterReset with rx := s.link.rx }
    station := .afterReset s.station.number .setup none
    port := ⟨none, none, .empty⟩
    store := s.store.abandon (Config.bytesWritten s.draws)
    rst := ⟨causes, true, supplyLow, pinLow, 0, 0⟩
    draws := if s.store.writing.isSome then s.draws + 1 else s.draws }

/-- The POWER source (R181): the other flags are not retained. -/
def Causes.onPower : Causes := ⟨true, false, false, false, false⟩

/-- A power-on: VDD has risen through 2.95 V (R181, R182). -/
def State.powerOn (s : State) : State := s.assertReset .onPower false s.rst.pinLow

/-- A core supply drop (R181). -/
def State.supplyDrop (s : State) : State := s.assertReset { s.rst.causes with supply := true } true s.rst.pinLow

/-- The reset pin is accepted low (R181). -/
def State.pinReset (s : State) : State := s.assertReset { s.rst.causes with pin := true } s.rst.supplyLow true

/-- The RESET command (R181). -/
def State.softReset (s : State) : State :=
  s.assertReset { s.rst.causes with soft := true } s.rst.supplyLow s.rst.pinLow

/-- The store holds the whole new block with its mark set (R180). -/
def Store.complete (new : Vector Byte 47) : Store := ⟨blockOf new, true, none⟩

/-- The option write in progress completes, and a CONFIG reset begins (R180, R181). -/
def State.writeCompleted (s : State) : State :=
  match s.store.writing with
  | some new =>
    State.assertReset { s with store := Store.complete new } { s.rst.causes with config := true } s.rst.supplyLow
      s.rst.pinLow
  | none => s

/-- The core supply has risen: its source ceases, and the start interval begins again (R182). -/
def Rst.supplyRise (r : Rst) : Rst := if r.supplyLow then { r with supplyLow := false, start := 0 } else r

/-- The reset pin is high again: its source ceases, and the start interval begins again (R182). -/
def Rst.pinHigh (r : Rst) : Rst := if r.pinLow then { r with pinLow := false, start := 0 } else r

/-- The start interval, µs (R182). -/
def startInterval : Nat := 2000

/-- The reset may end: no source acts, and the start interval has run (R182). -/
def Rst.mayEnd (r : Rst) : Bool := r.asserted && !r.acting && decide (startInterval ≤ r.start)

/-- The options in use after a reset (R179). -/
def Store.options (st : Store) : Options := if st.valid then .ofBlock st.bytes else .invalid

/-- The first station state (R159). -/
def firstState (setupHigh valid : Bool) : StationState := if setupHigh && valid then .joining else .setup

/-- Every block's values at the end of a reset (R15, R32, R47, R74, R111, R125, R144, R158, R171, R183). -/
def State.afterReset (s : State) (pins : ResetPins) : State :=
  let o := s.store.options
  let g := Gate.afterReset o.kind pins.swRest pins.swDiv
  { State.reset with
    pending := s.pending
    opts := o
    valid := s.store.valid
    belt := .afterReset pins.encA pins.encB
    gate := g
    link := { Link.afterReset with rx := s.link.rx }
    station := .afterReset pins.station (firstState pins.setupHigh s.store.valid) o.cover
    port := ⟨none, none, ⟨true, decide (g.state = .fault), false, false, false⟩⟩
    store := s.store
    rst := { s.rst with asserted := false, start := 0, sinceEnd := 0 }
    draws := s.draws }

/-- The reset ends, once it may (R182, R183). -/
def State.endReset (s : State) (pins : ResetPins) : State := if s.rst.mayEnd then s.afterReset pins else s

/-- An event of the reset logic: the lapse passes and the event acts, reset asserted or not (R182). -/
def resetEvent (l : Lapse) (f : State → State) (s : State) : Out := .next (f (s.elapse l))

/-- POWER_ON (R181, R182). -/
def execPowerOn (l : Lapse) (s : State) : Out := resetEvent l State.powerOn s

/-- CORE_SUPPLY_DROP (R181, R182). -/
def execCoreSupplyDrop (l : Lapse) (s : State) : Out := resetEvent l State.supplyDrop s

/-- RESET_PIN (R181, R182). -/
def execResetPin (l : Lapse) (s : State) : Out := resetEvent l State.pinReset s

/-- OPTION_WRITE_COMPLETED (R180, R181). -/
def execOptionWriteCompleted (l : Lapse) (s : State) : Out := resetEvent l State.writeCompleted s

/-- SUPPLY_RISE (R182). -/
def execSupplyRise (l : Lapse) (s : State) : Out := resetEvent l (fun s => { s with rst := s.rst.supplyRise }) s

/-- RESET_PIN_HIGH (R182). -/
def execResetPinHigh (l : Lapse) (s : State) : Out := resetEvent l (fun s => { s with rst := s.rst.pinHigh }) s

/-- RESET_END (R182, R183). -/
def execResetEnd (l : Lapse) (pins : ResetPins) (s : State) : Out := resetEvent l (fun s => s.endReset pins) s

end Sys2Proof.Machine
end

