-- ==== Sys2Proof/Machine/Station.lean ====
section
/-! DEFINITION. The station block and notice handling's received frames: the commands VALID_FRAME, JOINING_TIMER_EXPIRY, HELLO_TIMER_EXPIRY, QUIET and ABSENT. -/

namespace Sys2Proof.Machine

/-- The station state is changed (R163); what follows from it is handed on with the event. -/
def State.setStation (s : State) (st : StationState) : State := { s with station := { s.station with state := st } }

/-! ### The roster and the mode (R152, R167, R168, R169) -/

/-- The mode is evaluated from the cover station's slot (R169). -/
def State.evaluateMode (s : State) : State := { s with station := { s.station with mode := s.modeNow } }

/-- A roster slot is replaced, and the mode evaluated when it is the cover station's slot (R168, R169). -/
def State.setRoster (s : State) (n : Fin 16) (r : RosterSlot) : State :=
  let s' := { s with station := { s.station with roster := s.station.roster.set n r } }
  if s.opts.cover = some n then s'.evaluateMode else s'

/-- A reload of a slot's silence timer (R168). -/
def RosterSlot.heard (r : RosterSlot) : RosterSlot :=
  match r.state with
  | .self => r
  | .quiet => { r with state := .present, silence := some 0 }
  | .unknown | .present | .absent | .mismatch => { r with silence := some 0 }

/-- A HELLO taken by a slot (R167). -/
def RosterSlot.takeHello (stepCode : Nat) (h : HelloFields) (r : RosterSlot) : RosterSlot :=
  match r.state with
  | .self => r
  | .unknown | .present | .quiet | .absent | .mismatch =>
    { r with state := if h.step = stepCode then .present else .mismatch, fields := some h }

/-- The sender's number has been heard (R152, R168). -/
def State.hear (s : State) (n : Fin 16) : State := s.setRoster n s.station.roster[n].heard

/-- The 600,000 µs point of a slot's silence (R168). -/
def quietLimit : Nat := 600000

/-- A PRESENT slot becomes QUIET, once its silence has reached 600,000 µs (R168). -/
def State.quietSlot (s : State) (n : Fin 16) : State :=
  let r := s.station.roster[n]
  match r.state, r.silence with
  | .present, some t => if quietLimit ≤ t then s.setRoster n { r with state := .quiet } else s
  | _, _ => s

/-- A QUIET slot becomes ABSENT, once its silence has reached 800,000 µs (R168). -/
def State.absentSlot (s : State) (n : Fin 16) : State :=
  let r := s.station.roster[n]
  match r.state, r.silence with
  | .quiet, some t => if silenceStop ≤ t then s.setRoster n { r with state := .absent } else s
  | _, _ => s

/-! ### Received notices (R152 to R156) -/

/-- A HELLO is handed to the station block, or is malformed (R152, R153, R167). -/
def State.takeHello (s : State) (n : Fin 16) (payload : List Byte) : State :=
  match helloOfPayload payload with
  | some h => s.setRoster n (s.station.roster[n].takeHello s.opts.stepCode h)
  | none => s.bump .noticeMalformed

/-- An ESCAPE is counted when it names this station, or is malformed (R152, R154). -/
def State.takeEscape (s : State) (payload : List Byte) : State :=
  match escapeOfPayload payload with
  | some e => if e.target = s.station.number then s.bump (.escapeReported e.cls) else s
  | none => s.bump .noticeMalformed

/-- An accepted PIECE is offered to the receive queue (R156). -/
def State.offerRecord (s : State) (r : ReceiveRecord) : State :=
  if s.rxQueue.length < 4 then { s with rxQueue := s.rxQueue ++ [r] } else s.bump .rxQueueFull

/-- The sender is upstream within the listen reach (R155, R170). -/
def State.inReach (s : State) (senderS : Nat) : Bool :=
  let d : Int := (s.opts.s : Int) - (senderS : Int)
  decide (1 ≤ d) && decide (d ≤ (s.opts.listen : Int))

/-- The filter of a PIECE (R155). -/
def State.takePiece (s : State) (n : Fin 16) (payload : List Byte) (latch : Count) : State :=
  if s.station.state = .setup ∨ s.station.state = .joining then s
  else
    match recordOfPayload payload n 0 latch with
    | none => s.bump .noticeMalformed
    | some r =>
      match s.station.roster[n].live with
      | none => s.bump .noticeIgnored
      | some f => if s.inReach f.s then s.offerRecord { r with s := f.s } else s.bump .noticeIgnored

/-- A frame from another number is dispatched by its kind (R152). -/
def State.dispatch (s : State) (n : Fin 16) (kind : Nat) (payload : List Byte) (latch : Count) : State :=
  let s := s.hear n
  if kind = 1 then s.takeHello n payload
  else if kind = 2 then s.takePiece n payload latch
  else s.takeEscape payload

/-- An own-number frame sets the mute flag (R136, R142, R164). -/
def State.takeOwnNumber (s : State) : State :=
  if s.station.mute then s
  else { s with station := { s.station with mute := true }, link := { s.link with queue := [], waiting := none } }

/-- The station number of an ARB byte (R129). -/
def arbStation (arb : Byte) : Fin 16 := Fin.ofNat 16 arb.toNat

/-- A valid frame ends the reception and is handed on (R136). -/
def State.takeFrame (s : State) (arb kindLen : Byte) (payload : List Byte) (latch : Count) : State :=
  let s := { s with link := { s.link with state := .idle, arbRead := [], latch := none } }
  if arbStation arb = s.station.number then s.takeOwnNumber else s.dispatch (arbStation arb) (kindOf kindLen) payload latch

/-- The frame being received is complete and valid, if what has been read is (R136). -/
def State.validFrame (s : State) (rx : List LineByte) : State :=
  match s.link.state, s.link.latch, receive (s.link.reads rx) [] with
  | .receiving, some latch, .valid arb kindLen payload => s.takeFrame arb kindLen payload latch
  | _, _, _ => s

/-! ### Timers (R161, R165) -/

/-- The length of JOINING, µs (R161). -/
def joiningLimit : Nat := 400000

/-- The joining timer expires, once it has run its length (R161, R165). -/
def State.joiningExpiry (s : State) : State :=
  match s.station.state, s.station.joining with
  | .joining, some t =>
    if joiningLimit ≤ t then
      { s with station := { s.station with state := .running, joining := none, hello := some 0 } }
    else s
  | _, _ => s

/-- The HELLO timer's period, µs (R165). -/
def helloPeriod : Nat := 200000

/-- The HELLO timer expires, once it has run its period, and runs on (R165). -/
def State.helloExpiry (s : State) : State :=
  match s.station.hello with
  | some t =>
    if helloPeriod ≤ t then
      State.requestHello { s with station := { s.station with hello := some (t - helloPeriod) } }
    else s
  | none => s

/-! ### Commands -/

/-- VALID_FRAME (R136, R152 to R156, R164, R167, R169). -/
def execValidFrame (l : Lapse) (rx : List LineByte) (s : State) : Out := event l (fun s => s.validFrame rx) s

/-- JOINING_TIMER_EXPIRY (R161). -/
def execJoiningTimerExpiry (l : Lapse) (s : State) : Out := event l State.joiningExpiry s

/-- HELLO_TIMER_EXPIRY (R165). -/
def execHelloTimerExpiry (l : Lapse) (s : State) : Out := event l State.helloExpiry s

/-- QUIET (R168). -/
def execQuiet (l : Lapse) (slot : Fin 16) (s : State) : Out := event l (fun s => s.quietSlot slot) s

/-- ABSENT (R168, R169). -/
def execAbsent (l : Lapse) (slot : Fin 16) (s : State) : Out := event l (fun s => s.absentSlot slot) s

end Sys2Proof.Machine
end

