-- ==== Sys2Proof/Machine/Port.lean ====
section
/-! DEFINITION. The service port: the taking of a command, the records it answers with, and the commands of the host. -/

namespace Sys2Proof.Machine

/-! ### The taking of a command (R172, R173, R174) -/

/-- The previous response is discarded, with a READ ENTRY that waits, and a SAMPLE is withdrawn or its conversion marked for
discard (R29, R173, R174). -/
def State.discardResponse (s : State) : State :=
  { s with
    port := { s.port with response := none, deferred := none }
    scan := { s.scan with
      sampleWait := none
      job := match s.scan.job with
        | some (.sample c _) => some (.sample c false)
        | j => j } }

/-- A complete response is placed in the buffer (R173). -/
def State.answer (s : State) (st : Status) (data : List Byte) : State :=
  { s with port := { s.port with response := some ⟨st, data⟩ } }

/-- The tests the port makes before a command's own rule (R174): the store is writing, arguments are missing, or the argument
test fails. -/
def State.portTest (s : State) (needs : Nat) (argsOk : List Byte → Bool) (args : List Byte) : Option Status :=
  if s.store.writing.isSome then some .busy
  else if args.length < needs then some .refusedArg
  else if argsOk args then none
  else some .refusedArg

/-- The command is taken: the tests of R174, then its own rule. -/
def State.command (s : State) (needs : Nat) (argsOk : List Byte → Bool) (args : List Byte) (own : State → State) : State :=
  match s.portTest needs argsOk args with
  | some st => s.discardResponse.answer st []
  | none => own s.discardResponse

/-- A transaction ignored whole (R172): reset is asserted, or was since SEL_N fell. -/
def State.ignores (s : State) (t : Transaction) : Bool := s.rst.asserted || decide (s.rst.sinceEnd < t.selected)

/-- A command transaction (R172, R174). -/
def transaction (t : Transaction) (needs : Nat) (argsOk : List Byte → Bool) (own : State → State) (s : State) : Out :=
  event t.lapse (fun s => if s.ignores t then s else s.command needs argsOk t.args own) s

/-- No argument is tested. -/
def anyArgs (_ : List Byte) : Bool := true

/-- Argument byte k as a number. -/
def argNum (args : List Byte) (k : Nat) : Nat := (args.getD k 0).toNat

/-- The first argument is below a limit (section 11.2). -/
def firstBelow (n : Nat) (args : List Byte) : Bool := decide (argNum args 0 < n)

/-! ### Status (R176) -/

/-- Status record byte 8 (section 11.7). -/
def State.statusFlags (s : State) : Nat :=
  bit s.station.mute + 2 * bit (decide (s.link.state = .lineFault)) + 4 * bit (decide (s.gate.state = .fault)) +
    8 * bit s.scan.coilWeak + 16 * bit s.scan.curtainFault + 32 * bit s.valid

/-- The status record (R176, section 11.7). -/
def State.statusRecord (s : State) : List Byte :=
  [BitVec.ofNat 8 s.station.state.code, BitVec.ofNat 8 s.belt.state.code] ++ bytesOf 3 s.belt.t64 ++
    ([128 * s.station.mode.code + s.scan.band.code, s.outletState.code, s.gate.state.code, s.statusFlags,
      s.port.attention.code, s.entriesInUse, s.former.queue.length, s.rxQueue.length, s.outlets.openQ.length,
      s.outlets.closeQ.length, s.table.escapes.length, s.link.queue.length, s.station.number.val].map (BitVec.ofNat 8))

/-- READ STATUS: the record, and the attention set emptied (R176). -/
def State.readStatus (s : State) : State :=
  let r := s.statusRecord
  State.answer { s with port := { s.port with attention := .empty } } .ok r

/-- READ CAUSE: the flags, and all of them cleared (R181). -/
def State.readCause (s : State) : State :=
  State.answer { s with rst := { s.rst with causes := .clear } } .ok [BitVec.ofNat 8 s.rst.causes.code]

/-! ### Roster, entries, counters, options (R177, R178) -/

/-- A roster slot's 9 bytes (R177, section 11.7). -/
def RosterSlot.bytes (r : RosterSlot) : List Byte :=
  BitVec.ofNat 8 r.state.code ::
    match r.fields with
    | some h => helloPayload h
    | none => List.replicate 8 0

/-- Slots 4g to 4g + 3 (R177). -/
def State.rosterGroup (s : State) (g : Nat) : List Byte :=
  ((List.finRange 16).filter fun n => n.val / 4 = g).flatMap fun n => s.station.roster[n].bytes

/-- Byte 15 of an entry (section 11.7). -/
def LocalPart.code (p : LocalPart) : Nat := 16 * p.flags.code + p.cls.code

/-- Entry part 0 of an entry in use (R177, section 11.7): absent fields read 0. -/
def Entry.part0 (e : Entry) : List Byte :=
  let points := (e.decision.bind Decision.points).getD (0, 0)
  [BitVec.ofNat 8 e.state.code,
    BitVec.ofNat 8 (bit e.tag.isSome + 2 * bit e.own.isSome + 4 * bit e.escapeSource.isSome +
      8 * bit e.expectation.isSome + 16 * bit e.deadline.isSome + 32 * bit e.decision.isSome)] ++
    bytesOf 2 (e.tag.getD 0).toNat ++ bytesOf 3 e.lead.toNat ++ bytesOf 3 e.trail.toNat ++
    [BitVec.ofNat 8 e.first, BitVec.ofNat 8 e.last, BitVec.ofNat 8 e.centroid] ++ bytesOf 2 e.area ++
    [BitVec.ofNat 8 ((e.own.map LocalPart.code).getD 0)] ++ bytesOf 2 ((e.own.map LocalPart.nc).getD 0) ++
    signedBytes 4 ((e.own.map LocalPart.sumI).getD 0) ++ signedBytes 4 ((e.own.map LocalPart.sumQ).getD 0) ++
    bytesOf 3 ((e.expectation.map Expectation.e).getD 0).toNat ++
    bytesOf 2 ((e.expectation.map fun x => x.h + 32768 * bit x.perhaps).getD 0) ++ bytesOf 3 (e.deadline.getD 0).toNat ++
    [BitVec.ofNat 8 ((e.decision.map fun d => d.cls.code + 128 * bit d.target).getD 0)] ++
    bytesOf 3 points.1.toNat ++ bytesOf 3 points.2.toNat ++ bytesOf 4 ((e.decision.map Decision.granted).getD 0).toNat ++
    [BitVec.ofNat 8 ((e.decision.map fun d => d.flags.code).getD 0),
      BitVec.ofNat 8 ((e.escapeSource.map fun x => x.1.val).getD 0)] ++
    bytesOf 2 ((e.escapeSource.map fun x => x.2.toNat).getD 0) ++ [BitVec.ofNat 8 e.reports.length]

/-- The 17 bytes of a peer report (section 11.7). -/
def PeerReport.bytes (r : PeerReport) : List Byte :=
  [BitVec.ofNat 8 r.station.val] ++ bytesOf 2 r.s ++ bytesOf 2 r.tag.toNat ++
    [BitVec.ofNat 8 (r.cls.code + 16 * r.verdict.code)] ++ bytesOf 2 r.area ++ [BitVec.ofNat 8 r.flags.code] ++
    bytesOf 3 r.lead.toNat ++ bytesOf 2 r.length ++
    [BitVec.ofNat 8 r.first, BitVec.ofNat 8 r.last, BitVec.ofNat 8 r.centroid]

/-- Entry part 1 of an entry in use (R177, section 11.7). -/
def Entry.part1 (e : Entry) : List Byte :=
  [BitVec.ofNat 8 e.state.code, BitVec.ofNat 8 e.reports.length] ++ e.reports.flatMap PeerReport.bytes

/-- A part of a slot (R72, R177): a FREE slot returns its state alone. -/
def State.entryPart (s : State) (n : Fin 128) (part : Nat) : List Byte :=
  match s.table.slots[n] with
  | none => [0]
  | some e => if part = 0 then e.part0 else e.part1

/-- READ ENTRY: at once, or when the request in flight has ended (R177). -/
def State.readEntry (s : State) (inFlight : Option Claimant) (n : Fin 128) (part : Nat) : State :=
  let s := match inFlight with
    | some c => if s.table.inFlight.isNone then s.startRequest c none else s
    | none => s
  if s.table.inFlight.isSome then { s with port := { s.port with deferred := some (n, part) } }
  else s.answer .ok (s.entryPart n part)

/-- The deferred READ ENTRY is answered when no request is in flight (R177). -/
def State.answerDeferred (s : State) : State :=
  match s.port.deferred, s.table.inFlight with
  | some (n, part), none => State.answer { s with port := { s.port with deferred := none } } .ok (s.entryPart n part)
  | _, _ => s

/-- A counter stands on a page (section 11.7). -/
def onPage (g : Nat) (i : Fin 78) : Bool :=
  decide ((counterPage g).1 ≤ i.val) && decide (i.val < (counterPage g).1 + (counterPage g).2)

/-- A page's counters, 4 bytes each (R178). -/
def State.pageBytes (s : State) (g : Nat) : List Byte :=
  ((List.finRange 78).filter (onPage g)).flatMap fun i => bytesOf 4 s.counters[i].toNat

/-- Every counter of a page is cleared (R178). -/
def State.clearPage (s : State) (g : Nat) : State :=
  { s with counters := Vector.ofFn fun i => if onPage g i then 0 else s.counters[i] }

/-- READ OPTIONS: the 48 bytes as stored (R177). -/
def State.readOptions (s : State) : State := s.answer .ok s.store.bytes.toList

/-- The option write begins: the mark is cleared (R180). -/
def Store.beginWrite (st : Store) (new : Vector Byte 47) : Store := { st with mark := false, writing := some new }

/-- WRITE OPTIONS after R174 (R180). -/
def State.writeOptions (s : State) (args : List Byte) : State :=
  let new := blockArgs args
  if s.station.state ≠ .setup then s.answer .refusedState []
  else if blockInRange (blockOf new) && blockOrdered (blockOf new) then
    State.answer { s with store := s.store.beginWrite new } .ok []
  else s.answer .refusedArg []

/-! ### State commands (R160, R162), TEST LANE (R106) and SAMPLE (R29) -/

/-- START (R160, R161). -/
def State.startCommand (s : State) : State :=
  if s.station.state = .setup ∧ s.valid = true then
    State.answer { s with station := { s.station with state := .joining, joining := some 0 } } .ok []
  else s.answer .refusedState []

/-- PAUSE (R162). -/
def State.pauseCommand (s : State) : State :=
  if s.station.state = .running then (s.setStation .paused).answer .ok [] else s.answer .refusedState []

/-- RESUME (R162): any test lane ends (R107). -/
def State.resumeCommand (s : State) : State :=
  if s.station.state = .paused then (s.endTests.setStation .running).answer .ok [] else s.answer .refusedState []

/-- The record of a lane that a test lane opens (R106). -/
def Lane.testing (l : Lane) (now : TimeBase) : Lane := { l.openAt now with test := some 0 }

/-- TEST LANE (R106). -/
def State.testLaneCommand (s : State) (n : Nat) : State :=
  if h : n < 32 then
    let lane : Fin 32 := ⟨n, h⟩
    if s.opts.kind ≠ .lanes ∨ s.station.state ≠ .paused ∨ s.outlets.lanes[lane].state ≠ .closed ∨ s.avail = 0 then
      s.answer .refusedState []
    else (s.setLane lane (s.outlets.lanes[lane].testing s.timeBase)).answer .ok []
  else s.answer .refusedArg []

/-- The channel a SAMPLE names: lane 0..31, 32 SUPPLY, 33 COIL (section 11.2). -/
def channelOf (n : Nat) : Channel :=
  if h : n < 32 then .lane ⟨n, h⟩ else if n = 32 then .aux .supply else .aux .coil

/-- SAMPLE: its conversion becomes pending (R17, R29). -/
def State.sampleCommand (s : State) (n : Nat) : State :=
  { s with scan := Scan.arbitrate { s.scan with sampleWait := some (channelOf n) } }

/-! ### RESET (R181) and unknown codes (R174) -/

/-- The command codes of section 11.2. -/
def commandCodes : List Byte := [0x01, 0x02, 0x03, 0x04, 0x05, 0x06, 0x07, 0x08, 0x10, 0x11, 0x12, 0x13, 0x20, 0x21]

/-- The code is a command's, and one the table does not hold (R172, R174). -/
def unknownCode (code : Byte) : Bool := decide (code ≠ 0) && !commandCodes.contains code

/-- The command of a code, with the transaction that carries it (section 11.2): none for 0x00, a fetch (R172). inFlight is the
operand of READ_ENTRY alone. -/
def commandOf (code : Byte) (t : Transaction) (inFlight : Option Claimant) : Option Instr :=
  match code.toNat with
  | 0x00 => none
  | 0x01 => some (.readStatus t)
  | 0x02 => some (.readCause t)
  | 0x03 => some (.readRoster t)
  | 0x04 => some (.readEntry t inFlight)
  | 0x05 => some (.readCounters t)
  | 0x06 => some (.readAndClearCounters t)
  | 0x07 => some (.readOptions t)
  | 0x08 => some (.writeOptions t)
  | 0x10 => some (.start t)
  | 0x11 => some (.pause t)
  | 0x12 => some (.resume t)
  | 0x13 => some (.reset t)
  | 0x20 => some (.sample t)
  | 0x21 => some (.testLane t)
  | _ => some (.unknownCommandCode t code)

/-- The whole bytes of the bits sampled on SDI, most significant bit first; bits after the last whole byte are discarded
(R172). -/
def wholeBytes : List Bool → List Byte
  | a :: b :: c :: d :: e :: f :: g :: h :: rest =>
    BitVec.ofNat 8 ([a, b, c, d, e, f, g, h].foldl (fun n x => 2 * n + bit x) 0) :: wholeBytes rest
  | _ => []

/-- The command that a transaction brings (R172): the bits on SDI between the falling and the rising edge of SEL_N, with the
lapse and the time SEL_N was low. A transaction with no whole byte and a fetch bring none. -/
def transactionCommand (l : Lapse) (selected : Nat) (sdi : List Bool) (inFlight : Option Claimant) : Option Instr :=
  match wholeBytes sdi with
  | code :: args => commandOf code ⟨l, selected, args⟩ inFlight
  | [] => none

/-- A transaction on the pins of the service port: its command, if it brings one, waits behind the others, to be taken at the
rise of SEL_N that ends the transaction (R172, log 1, log 14). -/
def State.sendTransaction (s : State) (l : Lapse) (selected : Nat) (sdi : List Bool) (inFlight : Option Claimant) : State :=
  match transactionCommand l selected sdi inFlight with
  | some c => { s with pending := s.pending ++ [c] }
  | none => s

/-- The page arguments of both counter commands (section 11.2). -/
def pages : Nat := 7

/-! ### Commands -/

/-- READ_STATUS (R176). -/
def execReadStatus (t : Transaction) (s : State) : Out := transaction t 0 anyArgs State.readStatus s

/-- READ_CAUSE (R181). -/
def execReadCause (t : Transaction) (s : State) : Out := transaction t 0 anyArgs State.readCause s

/-- READ_ROSTER (R177). -/
def execReadRoster (t : Transaction) (s : State) : Out :=
  transaction t 1 (firstBelow 4) (fun s => s.answer .ok (s.rosterGroup (argNum t.args 0))) s

/-- READ_ENTRY (R72, R177). -/
def execReadEntry (t : Transaction) (inFlight : Option Claimant) (s : State) : Out :=
  transaction t 2 (fun a => firstBelow 128 a && decide (argNum a 1 < 2))
    (fun s => s.readEntry inFlight (Fin.ofNat 128 (argNum t.args 0)) (argNum t.args 1)) s

/-- READ_ENTRY_DEFERRED (R177). -/
def execReadEntryDeferred (l : Lapse) (s : State) : Out := event l State.answerDeferred s

/-- READ_COUNTERS (R178). -/
def execReadCounters (t : Transaction) (s : State) : Out :=
  transaction t 1 (firstBelow pages) (fun s => s.answer .ok (s.pageBytes (argNum t.args 0))) s

/-- READ_AND_CLEAR_COUNTERS (R178). -/
def execReadAndClearCounters (t : Transaction) (s : State) : Out :=
  transaction t 1 (firstBelow pages)
    (fun s => (s.clearPage (argNum t.args 0)).answer .ok (s.pageBytes (argNum t.args 0))) s

/-- READ_OPTIONS (R177). -/
def execReadOptions (t : Transaction) (s : State) : Out := transaction t 0 anyArgs State.readOptions s

/-- WRITE_OPTIONS (R180). -/
def execWriteOptions (t : Transaction) (s : State) : Out :=
  transaction t 47 anyArgs (fun s => s.writeOptions t.args) s

/-- START (R160). -/
def execStart (t : Transaction) (s : State) : Out := transaction t 0 anyArgs State.startCommand s

/-- PAUSE (R162). -/
def execPause (t : Transaction) (s : State) : Out := transaction t 0 anyArgs State.pauseCommand s

/-- RESUME (R162, R107). -/
def execResume (t : Transaction) (s : State) : Out := transaction t 0 anyArgs State.resumeCommand s

/-- TEST_LANE (R106). -/
def execTestLane (t : Transaction) (s : State) : Out :=
  transaction t 1 anyArgs (fun s => s.testLaneCommand (argNum t.args 0)) s

/-- SAMPLE (R29). -/
def execSample (t : Transaction) (s : State) : Out :=
  transaction t 1 (firstBelow 34) (fun s => s.sampleCommand (argNum t.args 0)) s

/-- UNKNOWN_COMMAND_CODE (R174); a code the table holds, or that of a fetch, is no unknown command. -/
def execUnknownCommandCode (t : Transaction) (code : Byte) (s : State) : Out :=
  event t.lapse
    (fun s => if s.ignores t || !unknownCode code then s else s.command 0 (fun _ => false) t.args id) s

/-- RESET (R181): a reset hands nothing on at its start. -/
def execReset (t : Transaction) (s : State) : Out :=
  let e := s.elapse t.lapse
  if e.ignores t || e.store.writing.isSome then transaction t 0 anyArgs id s else .next e.softReset

end Sys2Proof.Machine
end

