-- ==== Sys2Proof/Machine/Dispatch.lean ====
section
/-! DEFINITION. The dispatch: one arm per command, each one direct call of its meaning. -/

namespace Sys2Proof.Machine

def exec (i : Instr) (s : State) : Host.Outcome State Fault Refusal :=
  match i with
  | .encoderEdge l a b => Sys2Proof.Machine.execEncoderEdge l a b s
  | .stepSilenceExpiry l => Sys2Proof.Machine.execStepSilenceExpiry l s
  | .sweepComplete l raw curtain => Sys2Proof.Machine.execSweepComplete l raw curtain s
  | .auxiliaryTick l => Sys2Proof.Machine.execAuxiliaryTick l s
  | .auxiliaryConversionComplete l result => Sys2Proof.Machine.execAuxiliaryConversionComplete l result s
  | .sampleComplete l result => Sys2Proof.Machine.execSampleComplete l result s
  | .rowRecord l => Sys2Proof.Machine.execRowRecord l s
  | .opened l => Sys2Proof.Machine.execOpened l s
  | .settled l => Sys2Proof.Machine.execSettled l s
  | .localPiece l => Sys2Proof.Machine.execLocalPiece l s
  | .receiveRecord l => Sys2Proof.Machine.execReceiveRecord l s
  | .deadlineRequest l => Sys2Proof.Machine.execDeadlineRequest l s
  | .maxOnTrip l lane => Sys2Proof.Machine.execMaxOnTrip l lane s
  | .coolingEnd l lane => Sys2Proof.Machine.execCoolingEnd l lane s
  | .testLane t => Sys2Proof.Machine.execTestLane t s
  | .testLaneEnd l lane => Sys2Proof.Machine.execTestLaneEnd l lane s
  | .switchEvent l sw high => Sys2Proof.Machine.execSwitchEvent l sw high s
  | .travelTimeout l => Sys2Proof.Machine.execTravelTimeout l s
  | .busFree l => Sys2Proof.Machine.execBusFree l s
  | .arbitrationLost l k => Sys2Proof.Machine.execArbitrationLost l k s
  | .latchCount l => Sys2Proof.Machine.execLatchCount l s
  | .bitError l bit => Sys2Proof.Machine.execBitError l bit s
  | .breakEnd l => Sys2Proof.Machine.execBreakEnd l s
  | .transmitCompletion l => Sys2Proof.Machine.execTransmitCompletion l s
  | .lineFault l => Sys2Proof.Machine.execLineFault l s
  | .lineFaultEnd l => Sys2Proof.Machine.execLineFaultEnd l s
  | .frameDiscard l rx => Sys2Proof.Machine.execFrameDiscard l rx s
  | .validFrame l rx => Sys2Proof.Machine.execValidFrame l rx s
  | .joiningTimerExpiry l => Sys2Proof.Machine.execJoiningTimerExpiry l s
  | .helloTimerExpiry l => Sys2Proof.Machine.execHelloTimerExpiry l s
  | .quiet l slot => Sys2Proof.Machine.execQuiet l slot s
  | .absent l slot => Sys2Proof.Machine.execAbsent l slot s
  | .readStatus t => Sys2Proof.Machine.execReadStatus t s
  | .readCause t => Sys2Proof.Machine.execReadCause t s
  | .readRoster t => Sys2Proof.Machine.execReadRoster t s
  | .readEntry t inFlight => Sys2Proof.Machine.execReadEntry t inFlight s
  | .readEntryDeferred l => Sys2Proof.Machine.execReadEntryDeferred l s
  | .readCounters t => Sys2Proof.Machine.execReadCounters t s
  | .readAndClearCounters t => Sys2Proof.Machine.execReadAndClearCounters t s
  | .readOptions t => Sys2Proof.Machine.execReadOptions t s
  | .writeOptions t => Sys2Proof.Machine.execWriteOptions t s
  | .optionWriteCompleted l => Sys2Proof.Machine.execOptionWriteCompleted l s
  | .start t => Sys2Proof.Machine.execStart t s
  | .pause t => Sys2Proof.Machine.execPause t s
  | .resume t => Sys2Proof.Machine.execResume t s
  | .reset t => Sys2Proof.Machine.execReset t s
  | .sample t => Sys2Proof.Machine.execSample t s
  | .unknownCommandCode t code => Sys2Proof.Machine.execUnknownCommandCode t code s
  | .powerOn l => Sys2Proof.Machine.execPowerOn l s
  | .coreSupplyDrop l => Sys2Proof.Machine.execCoreSupplyDrop l s
  | .resetPin l => Sys2Proof.Machine.execResetPin l s
  | .resetEnd l pins => Sys2Proof.Machine.execResetEnd l pins s
  | .startEdge l samples => Sys2Proof.Machine.execStartEdge l samples s
  | .supplyRise l => Sys2Proof.Machine.execSupplyRise l s
  | .resetPinHigh l => Sys2Proof.Machine.execResetPinHigh l s

end Sys2Proof.Machine
end

