-- ==== Sys2Proof/Safety.lean ====
section
/-! DEFINITION. What counts as a safe run: the promises the manual makes about the whole part, as properties of a state. -/

namespace Sys2Proof.Machine

/-- The number of OPEN lane outlets does not exceed the budget of the current supply band (R105). -/
abbrev State.LanesWithinBudget (s : State) : Prop := s.outlets.openCount ≤ s.budget

/-- Each of these queues and lists holds at most what its rule gives it: the timestamp ring 64 (R7), the overrun list 8 (R23),
the local piece queue 4 (R45), an entry's list of reports 3 (R50), the escape watch list 32 (R69), the open and close queues
32 each (R91), the divert history 4 (R113), the transmit queue 16 (R140), the receive queue 4 (R156). -/
abbrev State.QueuesBounded (s : State) : Prop :=
  s.belt.ring.length ≤ 64 ∧ (s.scan.sweep.all fun w => w.overrun.length ≤ 8) = true ∧ s.former.queue.length ≤ 4 ∧
    (∀ i : Fin 128, (s.table.slots[i].all fun e => e.reports.length ≤ 3) = true) ∧
    s.table.escapes.length ≤ 32 ∧ s.outlets.openQ.length ≤ 32 ∧ s.outlets.closeQ.length ≤ 32 ∧
    s.gate.history.length ≤ 4 ∧ s.link.queue.length ≤ 16 ∧ s.rxQueue.length ≤ 4

/-- A notice is being attempted in ARBITRATING and SENDING alone (R132, R138). -/
def LinkState.attempting : LinkState → Bool
  | .arbitrating | .sending => true
  | .idle | .receiving | .breaking | .lineFault => false

/-- The transmit queue as R140 and R141 give it: at most 16 notices, at most one of them a HELLO, ordered by ARB value; at
most one attempted, and only during an attempt; a pending HELLO only beside an attempted HELLO or a full queue without one. -/
abbrev Link.TransmitQueueSound (k : Link) : Prop :=
  k.queue.length ≤ 16 ∧ (k.queue.countP fun n => n.isHello) ≤ 1 ∧ k.queue.Pairwise (fun a b => a.arb ≤ b.arb) ∧
    (k.queue.countP fun n => n.attempted) ≤ bit k.state.attempting ∧
    (k.waiting.isSome → (k.queue.any fun n => n.isHello && n.attempted) ∨
      (16 ≤ k.queue.length ∧ k.queue.all fun n => !n.isHello))

/-- The roster and the mode as R166, R168 and R169 give them: the slot of the station's own number is SELF and no other is;
a slot is PRESENT or QUIET only with the fields of a HELLO of this station's step code and a silence timer that runs and has
not passed 800,000 µs; the mode is the one the cover station's slot gives. -/
abbrev State.RosterSound (s : State) : Prop :=
  (∀ n : Fin 16, s.station.roster[n].state = .self ↔ n = s.station.number) ∧
    (∀ n : Fin 16, s.station.roster[n].state = .present ∨ s.station.roster[n].state = .quiet →
      (s.station.roster[n].fields.any fun h => h.step = s.opts.stepCode) = true ∧
        (s.station.roster[n].silence.any fun t => t ≤ silenceStop) = true) ∧
    s.station.mode = s.modeNow

/-- The gate's promises (R112, R119): on a GATE station the holder count is the number of windows in the close queue, and the
divert command is asserted only while the station is RUNNING and the belt is MOVING; on any other station the gate is at
REST. -/
abbrev State.GateSound (s : State) : Prop :=
  (s.opts.kind = .gate → s.gate.holders = s.outlets.closeQ.length) ∧
    (s.gate.state.commanded = true → s.opts.kind = .gate ∧ s.blocked = false ∧ s.belt.state = .moving) ∧
    (s.opts.kind ≠ .gate → s.gate.state = .rest)

/-- The reset logic's own state: a source that acts keeps reset asserted, and no command is pending at the port meanwhile
(R173, R182); the mark of the store is clear while a write is in progress (R180). -/
abbrev State.ResetSound (s : State) : Prop :=
  (s.rst.acting = true → s.rst.asserted = true) ∧ (s.store.writing.isSome = true → s.store.mark = false) ∧
    (s.rst.asserted = true →
      s.port.response = none ∧ s.port.deferred = none ∧ s.port.attention.any = false ∧ s.store.writing = none ∧
        s.outlets = .afterReset ∧ s.rst.causes.any = true)

/-! ### Words that the statements share -/

/-- The pairs of levels that follow one another in the forward order (R1). -/
def forwardPairs : List ((Bool × Bool) × (Bool × Bool)) :=
  [((false, false), (true, false)), ((true, false), (true, true)), ((true, true), (false, true)),
    ((false, true), (false, false))]

/-- A list with x behind the front elements that come before it: the order in which the queues are kept (R69, R91, R140). -/
def placed {α : Type} (before : α → Bool) (x : α) (q : List α) : List α := q.takeWhile before ++ x :: q.dropWhile before

/-- A notice in a transmit queue, behind every notice of lower or equal ARB (R140). -/
def queueWith (n : Notice) (q : List Notice) : List Notice := placed (fun m => decide (m.arb ≤ n.arb)) n q

/-- The µs of a lapse. -/
def lapseUs (l : Lapse) : Nat := (l.map Run.us).sum

/-- One byte as an undisturbed line carries it: each bit's three samples agree, and the next byte follows at once (R128). -/
def cleanByte (b : Byte) : LineByte :=
  ⟨160, Vector.ofFn fun i => if (lineBits b).getD i.val true then 7 else 0⟩

/-- A frame as an undisturbed line carries it. -/
def cleanFrame (f : TxFrame) : List LineByte := f.bytes.map cleanByte

/-- The fields of a HELLO lie within their ranges (section 9.2). -/
def HelloFields.inRange (h : HelloFields) : Bool := decide (h.s < 65536) && decide (h.o < 4096) && decide (h.step < 4)

/-- The fields of a PIECE lie within their ranges and pass the content test (section 9.2, R152). -/
def PieceNotice.inRange (p : PieceNotice) : Bool :=
  decide (1 ≤ p.length) && decide (p.length < 65536) && decide (1 ≤ p.area) && decide (p.area ≤ 8160) &&
    decide (p.first ≤ p.centroid) && decide (p.centroid ≤ p.last) && decide (p.last < 32)

/-- What a decision makes of the entry en of slot i, which holds its piece's geometry, with cls as its effective class, flags
as its notice's and its lanes widened by w. A non-target settles REMOVED or PASSED by the passive mask, and on a GATE station
is PASSING until trail + O. A target's window runs from lead + O − pre margin to trail + O + post margin, cut at W_max, with
the lane span of R84 on a LANES station: without room in the open queue it settles DENIED, cause QUEUE; on a MOVING belt with
its close point already due, LATE; otherwise its window joins the open queue behind every window of earlier or equal open
point, LATE-OPEN when on a MOVING belt the open point is already due, and it is DUE (R61, R66, R67, R77, R80 to R88, R91). -/
def EntryDecided (s : State) (rd : Reading) (i : Fin 128) (en : Entry) (cls : PieceClass) (flags : PieceFlags) (w : Nat)
    (answers : State → Prop) : Prop :=
  let target := decide (s.opts.kind ≠ .nothing) &&
    ClassMask.has (if rd.mode = .assisted then s.opts.eject else s.opts.fallback) cls &&
    decide (s.opts.areaMin ≤ en.area) && decide (en.area ≤ s.opts.areaMax)
  let settles := fun (u : State) (v : Verdict) =>
    let t := u.requestPiece
      { tag := en.tag.getD 0, flags := flags, lead := en.lead, length := (en.trail - en.lead).toNat + 1, first := en.first
        last := en.last, centroid := en.centroid, area := en.area, cls := cls, verdict := v }
    { t with table := { t.table with slots := t.table.slots.set i none } }
  let keeps := fun en : Entry => { s with table := { s.table with slots := s.table.slots.set i (some en) } }
  let pOpen := shift en.lead ((s.opts.o : Int) - (s.opts.pre : Int))
  let wide := shift en.trail ((s.opts.o : Int) + (s.opts.post : Int))
  let cut := decide ((s.opts.wMax : Int) < diff wide pOpen)
  let pClose := if cut then shift pOpen (s.opts.wMax : Int) else wide
  let isDue := fun point : Count => decide (rd.belt = .moving) && reaches rd.count (shift point (-(rd.lead : Int)))
  let marks : WindowFlags := { lateOpen := isDue pOpen, longCut := cut, lanesTrimmed := false, cut := false }
  let lane := fun x : Int => (max 0 (min 31 x)).toNat
  let span : Span :=
    { first := lane ((en.first : Int) + s.opts.laneOffset - (s.opts.laneMargin : Int) - (w : Int))
      last := lane ((en.last : Int) + s.opts.laneOffset + (s.opts.laneMargin : Int) + (w : Int))
      centroid := lane ((en.centroid : Int) + s.opts.laneOffset) }
  let window : Window :=
    { slot := i, pOpen := pOpen, pClose := pClose, flags := marks
      span := if s.opts.kind = .lanes then some span else none, grant := 0 }
  (target = false → s.opts.kind ≠ .gate →
    (let v := if ClassMask.has s.opts.passive cls then Verdict.removed else .passed;
      answers (settles (s.bump (.verdict v cls)) v))) ∧
  (target = false → s.opts.kind = .gate →
    answers (keeps { en with
      state := .passing, deadline := some (shift en.trail (s.opts.o : Int))
      decision := some
        { cls := cls, target := false, points := none, granted := 0
          flags := { lateOpen := false, longCut := false, lanesTrimmed := false, cut := false } } })) ∧
  (target = true → (rd.room = false ∨ 32 ≤ s.outlets.openQ.length) →
    answers (settles ((s.bump (.verdict .denied cls)).bump .deniedQueue) .denied)) ∧
  (target = true → rd.room = true → s.outlets.openQ.length < 32 → isDue pClose = true →
    answers (settles (s.bump (.verdict .late cls)) .late)) ∧
  (target = true → rd.room = true → s.outlets.openQ.length < 32 → isDue pClose = false →
    answers { keeps { en with
        state := .due, deadline := none
        decision := some { cls := cls, target := true, points := some (pOpen, pClose), granted := 0, flags := marks } } with
      outlets := { s.outlets with openQ := placed (fun y => reaches pOpen y.pOpen) window s.outlets.openQ } })

end Sys2Proof.Machine

namespace Sys2Proof

/-- The time before a command (log 2). -/
def Instr.lapse : Instr → Lapse
  | .encoderEdge l _ _ => l.lapse
  | .stepSilenceExpiry l => l
  | .sweepComplete l _ _ => l
  | .auxiliaryTick l => l
  | .auxiliaryConversionComplete l _ => l
  | .sampleComplete l _ => l
  | .rowRecord l => l.lapse
  | .opened l => l
  | .settled l => l
  | .localPiece l => l
  | .receiveRecord l => l
  | .deadlineRequest l => l
  | .maxOnTrip l _ => l
  | .coolingEnd l _ => l
  | .testLane t => t.lapse
  | .testLaneEnd l _ => l
  | .switchEvent l _ _ => l
  | .travelTimeout l => l
  | .busFree l => l
  | .arbitrationLost l _ => l
  | .latchCount l => l
  | .bitError l _ => l
  | .breakEnd l => l
  | .transmitCompletion l => l
  | .lineFault l => l
  | .lineFaultEnd l => l
  | .frameDiscard l _ => l
  | .validFrame l _ => l
  | .joiningTimerExpiry l => l
  | .helloTimerExpiry l => l
  | .quiet l _ => l
  | .absent l _ => l
  | .readStatus t => t.lapse
  | .readCause t => t.lapse
  | .readRoster t => t.lapse
  | .readEntry t _ => t.lapse
  | .readEntryDeferred l => l
  | .readCounters t => t.lapse
  | .readAndClearCounters t => t.lapse
  | .readOptions t => t.lapse
  | .writeOptions t => t.lapse
  | .optionWriteCompleted l => l
  | .start t => t.lapse
  | .pause t => t.lapse
  | .resume t => t.lapse
  | .reset t => t.lapse
  | .sample t => t.lapse
  | .unknownCommandCode t _ => t.lapse
  | .powerOn l => l
  | .coreSupplyDrop l => l
  | .resetPin l => l
  | .resetEnd l _ => l
  | .startEdge l _ => l
  | .supplyRise l => l
  | .resetPinHigh l => l

/-- The commands that act while reset is asserted: the sources of reset, their ends, and the end of reset (R182). -/
def Instr.actsInReset : Instr → Bool
  | .powerOn .. | .coreSupplyDrop .. | .resetPin .. | .optionWriteCompleted .. | .supplyRise .. | .resetPinHigh .. | .resetEnd .. => true
  | .encoderEdge .. | .stepSilenceExpiry .. | .sweepComplete .. | .auxiliaryTick ..
  | .auxiliaryConversionComplete .. | .sampleComplete .. | .rowRecord .. | .opened .. | .settled .. | .localPiece ..
  | .receiveRecord .. | .deadlineRequest .. | .maxOnTrip .. | .coolingEnd .. | .testLane .. | .testLaneEnd ..
  | .switchEvent .. | .travelTimeout .. | .busFree .. | .arbitrationLost .. | .latchCount .. | .bitError ..
  | .breakEnd .. | .transmitCompletion .. | .lineFault .. | .lineFaultEnd .. | .frameDiscard .. | .validFrame ..
  | .joiningTimerExpiry .. | .helloTimerExpiry .. | .quiet .. | .absent .. | .readStatus .. | .readCause ..
  | .readRoster .. | .readEntry .. | .readEntryDeferred .. | .readCounters .. | .readAndClearCounters ..
  | .readOptions .. | .writeOptions .. | .start .. | .pause .. | .resume .. | .reset .. | .sample ..
  | .unknownCommandCode .. | .startEdge .. => false

end Sys2Proof
end

