-- ==== Sys2Proof/Certificates/Slice0/Obligations.lean ====
section
/-! DEFINITION. The statements for the provers. In each, e is the state after the command's lapse, and handOn e a is what the event hands on when it has changed e into a (O5). -/

open Sys2Proof Sys2Proof.Machine

/-! ### The machine as a whole -/

/-- A step runs the command at the front of the queue on the state with the queue's rest; on an empty queue 1 µs passes. The
model's choice, log 1. -/
def Obligations.StepRunsFrontCommand : Prop :=
  (∀ (c : Instr) (rest : List Instr) (s : State), s.pending = c :: rest → step s = exec c { s with pending := rest }) ∧
    ∀ s : State, s.pending = [] → step s = .next (s.pass s.link.rx 1)

/-- Every command answers a next state, and leaves the queue as it was. The model's choices: the queue is log 1's, and that a
command whose cause is absent runs too, its time alone passing, is log 3's. -/
def Obligations.EveryCommandRuns : Prop :=
  ∀ (c : Instr) (s : State), ∃ t, exec c s = .next t ∧ t.pending = s.pending

/-- While reset is asserted, every command but the sources of reset, their ends and the end of reset lets its time pass and
does nothing else (R15, R32, R47, R74, R158, R171, R172). -/
def Obligations.ResetHoldsEveryBlock : Prop :=
  ∀ (c : Instr) (s : State), s.rst.asserted = true → c.actsInReset = false → exec c s = .next (s.elapse c.lapse)

/-- The passing of time moves the time base and the timers that run, the line's level and its two counts, and the
arbitration of a link, and nothing else. A µs holds 4, 8 or 16 samples, and a count is the number of samples of its level in
a row (R131, R139); a link whose arbitration reaches 9 bit times, the start bit and 8 data bits of ARB, is in SENDING
(R133). The model's choices: the lapse is log 2's; samples that START_EDGE has read already are not counted again (log 22);
that the end of arbitration falls in a lapse is log 8's; that time base, timers and counts stand while reset is asserted is
log 21's, and only the start interval and the level then move. -/
def Obligations.TimePassesAlone : Prop :=
  ∀ (l : Lapse) (s e : State), e = s.elapse l →
    (let runs := l.filter fun r => decide (r.us ≠ 0);
      let perUs := if s.opts.rate = 2 then 16 else if s.opts.rate = 1 then 8 else 4;
      let samples := (runs.flatMap fun r => List.replicate (perUs * r.us) r.level).drop s.link.ahead;
      let counted := fun (v : Level) (old : Nat) =>
        if samples.all fun x => decide (x = v) then old + samples.length
        else (samples.reverse.takeWhile fun x => decide (x = v)).length;
      let won := decide (s.link.state = .arbitrating) && decide (0 < lapseUs l) &&
        s.link.arbTime.any fun t => decide (9 * (16 / perUs) ≤ t + lapseUs l);
      e.link.rx = ((runs.getLast?.map Run.level).getD s.link.rx) ∧
        (s.rst.asserted = false →
          e.link.idle = counted .recessive s.link.idle ∧ e.link.dominant = counted .dominant s.link.dominant ∧
          e.link.ahead = s.link.ahead - perUs * lapseUs l ∧
          e.link.state = (if won then .sending else s.link.state) ∧
          e.link.arbTime = (if won then none else s.link.arbTime.map (· + lapseUs l))) ∧
        (s.rst.asserted = true → e.link = { s.link with rx := e.link.rx })) ∧
    (e.pending = s.pending ∧ e.opts = s.opts ∧ e.valid = s.valid ∧ e.former = s.former ∧ e.table = s.table ∧
      e.rxQueue = s.rxQueue ∧ e.port = s.port ∧ e.store = s.store ∧ e.counters = s.counters ∧ e.draws = s.draws ∧
      e.outlets.openQ = s.outlets.openQ ∧ e.outlets.closeQ = s.outlets.closeQ ∧ e.rst.asserted = s.rst.asserted ∧
      e.rst.causes = s.rst.causes ∧ e.rst.supplyLow = s.rst.supplyLow ∧ e.rst.pinLow = s.rst.pinLow ∧
      e.link.queue = s.link.queue ∧ e.link.waiting = s.link.waiting ∧ e.link.frame = s.link.frame ∧
      e.link.arbRead = s.link.arbRead ∧ e.link.latch = s.link.latch ∧
      (∀ n : Fin 16, e.station.roster[n].state = s.station.roster[n].state ∧
        e.station.roster[n].fields = s.station.roster[n].fields)) ∧
    (s.rst.asserted = false →
      e.timeBase = s.timeBase + BitVec.ofNat 32 (lapseUs l) ∧
      e.belt = { s.belt with silence := s.belt.silence.map (· + lapseUs l) } ∧
      e.scan = { s.scan with
        jobTime := if s.scan.job.isSome then s.scan.jobTime + lapseUs l else s.scan.jobTime
        auxTimer := s.scan.auxTimer + lapseUs l } ∧
      (∀ n : Fin 32, e.outlets.lanes[n] = { s.outlets.lanes[n] with
        test := s.outlets.lanes[n].test.map (· + lapseUs l) }) ∧
      e.gate = { s.gate with travel := s.gate.travel.map (· + lapseUs l) } ∧
      e.link.breakTime = s.link.breakTime.map (· + lapseUs l) ∧
      e.station.number = s.station.number ∧ e.station.state = s.station.state ∧ e.station.mute = s.station.mute ∧
      e.station.mode = s.station.mode ∧ e.station.joining = s.station.joining.map (· + lapseUs l) ∧
      e.station.hello = s.station.hello.map (· + lapseUs l) ∧
      (∀ (n : Fin 16) (t : Nat), s.station.roster[n].silence = some t → t ≤ silenceStop →
        e.station.roster[n].silence = some (min (t + lapseUs l) silenceStop)) ∧
      (∀ n : Fin 16, s.station.roster[n].silence = none → e.station.roster[n].silence = none) ∧
      e.rst.start = s.rst.start ∧ e.rst.sinceEnd = s.rst.sinceEnd + lapseUs l) ∧
    (s.rst.asserted = true →
      e.timeBase = s.timeBase ∧ e.belt = s.belt ∧ e.scan = s.scan ∧ e.outlets = s.outlets ∧ e.gate = s.gate ∧
        e.station = s.station ∧ (s.rst.acting = false → e.rst.start = s.rst.start + lapseUs l))

/-- The outlets of a LANES station are blocked exactly while the station is not RUNNING, the belt is STOPPED or REVERSING or
the band is FAULT, and those of a GATE station also while the gate is in FAULT (R95); the outlet state is the first row that
applies of R108's table. What an event that has changed b into a hands on: reasons join the attention set as R175 gives
them; the outlets, the gate and the report path change only where blocking begins (R96). A change of the belt, station or
outlet state or of the mode requests a HELLO with the new values (R12, R163, R165); a link in IDLE on a free bus, permitted
to transmit, whose queue holds a notice and that did not meet all of this before the event, begins an attempt (R132); the
link and the two counters of dropped notices change for nothing else, and everything else is as a has it. u is a with the
beginning of blocking taken, which comes first (the order is the model's choice, log 23). -/
def Obligations.HandOnFrame : Prop :=
  (∀ s : State,
    (s.opts.kind ≠ .nothing →
      (s.blocked = true ↔ s.station.state ≠ .running ∨ s.belt.state = .stopped ∨ s.belt.state = .reversing ∨
        s.scan.band = .fault ∨ (s.opts.kind = .gate ∧ s.gate.state = .fault))) ∧
    s.outletState =
      if s.opts.kind = .nothing then .nothing
      else if s.station.state = .setup ∨ s.station.state = .joining ∨ s.station.state = .paused ∨ s.scan.band = .fault ∨
          (s.opts.kind = .gate ∧ s.gate.state = .fault) then .unavailable
      else if s.scan.band = .low ∨ ∃ n : Fin 32, s.outlets.lanes[n].state = .cooling then .limited
      else .available) ∧
  ∀ b a t : State, t = handOn b a →
    (t.pending = b.pending ∧ t.timeBase = a.timeBase ∧ t.opts = a.opts ∧ t.valid = a.valid ∧ t.belt = a.belt ∧
      t.scan = a.scan ∧ t.former = a.former ∧ t.rxQueue = a.rxQueue ∧ t.station = a.station ∧ t.store = a.store ∧
      t.rst = a.rst ∧ t.draws = a.draws ∧ t.table.slots = a.table.slots ∧ t.table.escapes = a.table.escapes ∧
      t.table.inFlight = a.table.inFlight ∧ t.port.response = a.port.response ∧ t.port.deferred = a.port.deferred) ∧
    t.port.attention =
      { stateChange := a.port.attention.stateChange || decide (a.station.state ≠ b.station.state)
        gateFault := a.port.attention.gateFault || (decide (a.gate.state = .fault) && decide (b.gate.state ≠ .fault))
        mute := a.port.attention.mute || (a.station.mute && !b.station.mute)
        lineFault := a.port.attention.lineFault ||
          (decide (a.link.state = .lineFault) && decide (b.link.state ≠ .lineFault))
        bandFault := a.port.attention.bandFault || (decide (a.scan.band = .fault) && decide (b.scan.band ≠ .fault)) } ∧
    ((b.blocked = true ∨ a.blocked = false) →
      t.outlets = a.outlets ∧ t.gate = a.gate ∧ t.table.reports = a.table.reports) ∧
    (∀ u : State, u = blockIfBegun b a →
      (let changed := decide (u.belt.state ≠ b.belt.state) || decide (u.station.state ≠ b.station.state) ||
          decide (u.outletState ≠ b.outletState) || decide (u.station.mode ≠ b.station.mode);
        let permitted := decide (u.station.state = .running ∨ u.station.state = .paused) && !u.station.mute;
        let ready := fun (s : State) (q : List Notice) =>
          decide (s.link.state = .idle) && decide (192 ≤ s.link.idle) && s.mayTransmit && !q.isEmpty;
        let hello := helloNotice u.station.number
          { s := u.opts.s, o := u.opts.o, kind := u.opts.kind, scan := u.opts.scan, step := u.opts.stepCode
            station := u.station.state, belt := u.belt.state, outlet := u.outletState, mode := u.station.mode };
        let starts := fun (n : Notice) (rest : List Notice) => { a.link with
          state := .arbitrating
          queue := { n with attempted := true } :: rest
          frame := some ⟨BitVec.ofNat 8 n.arb, n.body.kindLen, n.body.payload 0⟩
          arbTime := some 0
          arbRead := []
          latch := none };
        ((changed && permitted) = false →
          (ready b b.link.queue = true ∨ ready u a.link.queue = false → t.link = a.link ∧ t.counters = a.counters) ∧
          (ready b b.link.queue = false → ready u a.link.queue = true →
            ∀ (n : Notice) (rest : List Notice), a.link.queue = n :: rest →
              (∀ p, n.body = .piece p → ∃ f ∈ a.listeners, (a.opts.s : Int) + diff a.belt.count p.lead < (f.s : Int)) →
              t.link = starts n rest ∧ t.counters = a.counters)) ∧
        ((changed && permitted) = true → a.link.waiting = none → (∀ n ∈ a.link.queue, n.isHello = false) →
          a.link.queue.length < 16 →
          (let q := queueWith hello a.link.queue;
            (ready b b.link.queue = true ∨ ready u q = false →
              t.link = { a.link with queue := q } ∧ t.counters = a.counters) ∧
            (ready b b.link.queue = false → ready u q = true → a.link.queue = [] →
              t.link = starts hello [] ∧ t.counters = a.counters))))) ∧
    ∀ c : Counter, c ≠ .txDropped → c ≠ .txStale → t.counter c = a.counter c

/-- When blocking begins, every window of the close queue leaves it, settled TRIMMED with CUT in the queue's order, and the
open queue is untouched. Each lane loses a holder for each of those windows that had been granted it, and is CLOSED when
none is left, its opened-at time dropped (the model's choice, log 26). On a GATE station whose holder count is the number of
those windows, no holder is left, and a gate held out is released: its interval ends at the count plus the lead, and it is
MOVING-BACK, or at REST at once with SW_REST closed and SW_DIV open (R96, R113, R119; the last reading is log 27's). -/
def Obligations.BlockingCutsWindows : Prop :=
  ∀ b a t : State, t = handOn b a → b.blocked = false → a.blocked = true →
    t.outlets.openQ = a.outlets.openQ ∧ t.outlets.closeQ = [] ∧
      t.table.reports = a.table.reports ++
        a.outlets.closeQ.map (fun w => .settled w.slot .trimmed none { w.flags with cut := true }) ∧
      (∀ n : Fin 32,
        let k := a.outlets.closeQ.countP fun w => w.grant.getLsbD n.val;
        t.outlets.lanes[n] =
          if k = 0 then a.outlets.lanes[n]
          else if k < a.outlets.lanes[n].holders then
            { a.outlets.lanes[n] with holders := a.outlets.lanes[n].holders - k }
          else { a.outlets.lanes[n] with state := .closed, holders := 0, openedAt := none }) ∧
      (a.opts.kind = .gate → a.gate.holders = a.outlets.closeQ.length →
        t.gate =
          if a.gate.state = .movingOut ∨ a.gate.state = .divert then
            let back := decide (a.gate.swRest = false ∧ a.gate.swDiv = true);
            { a.gate with
              holders := 0
              state := if back then .rest else .movingBack
              travel := if back then none else some 0
              current := none
              history := match a.gate.current with
                | some x => (if 4 ≤ a.gate.history.length then a.gate.history.drop 1 else a.gate.history) ++
                    [⟨x, shift a.belt.count (lead a.belt.t64 a.opts.d)⟩]
                | none => a.gate.history }
          else { a.gate with holders := 0 })

/-! ### Belt -/

/-- Differences, reaching, being before and offsets of belt counts (R3). The lead lies within 0..511, and below 511 it is the
number of steps nearest to D × 64 / T64, a half rounding up (R9). -/
def Obligations.CountsAndLead : Prop :=
  (∀ a b : Count,
    (let r : Nat := (a.toNat + 2 ^ 24 - b.toNat) % 2 ^ 24;
      diff a b = if r < 2 ^ 23 then (r : Int) else (r : Int) - 2 ^ 24) ∧
    (reaches a b = true ↔ 0 ≤ diff a b) ∧ (isBefore a b = true ↔ reaches a b = false) ∧
    ∀ n : Int, ((shift a n).toNat : Int) = ((a.toNat : Int) + n) % 2 ^ 24) ∧
  ∀ t64 d : Nat, 0 < t64 →
    lead t64 d ≤ 511 ∧ 2 * t64 * lead t64 d ≤ 128 * d + t64 ∧
      (lead t64 d < 511 → 128 * d < 2 * t64 * lead t64 d + t64)

/-- An edge that does not carry the sub-count across a boundary moves the sub-count alone; an illegal transition is counted
and delivers no edge; an unchanged pair is no edge; the new pair becomes the reference (R1, R2). What the operand between has
read ahead stands in g (log 29). The step silence timer, at 100,000 µs in UNSETTLED, MOVING or REVERSING, makes the belt STOPPED
with T64 4,194,303 and counts STOPS; in STOPPED it only stops; before its limit, or not running, nothing expires (R4). -/
def Obligations.EdgesAndSilence : Prop :=
  (∀ (l : Lapse) (a b : Bool) (between : Option Claimant) (s e g : State), e = s.elapse l → e.rst.asserted = false →
    g = e.readAhead between →
    (((e.belt.encA, e.belt.encB), (a, b)) ∈ forwardPairs → e.belt.sub + 1 < e.opts.p →
      exec (.encoderEdge ⟨l, between⟩ a b) s =
        .next (handOn e { g with belt := { e.belt with encA := a, encB := b, sub := e.belt.sub + 1 } })) ∧
    (((a, b), (e.belt.encA, e.belt.encB)) ∈ forwardPairs → e.belt.sub ≠ 0 →
      exec (.encoderEdge ⟨l, between⟩ a b) s =
        .next (handOn e { g with belt := { e.belt with encA := a, encB := b, sub := e.belt.sub - 1 } })) ∧
    (a ≠ e.belt.encA → b ≠ e.belt.encB →
      exec (.encoderEdge ⟨l, between⟩ a b) s =
        .next (handOn e (State.bump { g with belt := { e.belt with encA := a, encB := b } } .encoderFault))) ∧
    (a = e.belt.encA → b = e.belt.encB → exec (.encoderEdge ⟨l, between⟩ a b) s = .next (handOn e g))) ∧
  ∀ (l : Lapse) (s e : State), e = s.elapse l → e.rst.asserted = false →
    (∀ n, e.belt.silence = some n → 100000 ≤ n → e.belt.state ≠ .stopped →
      exec (.stepSilenceExpiry l) s =
        .next (handOn e
          (State.bump { e with belt := { e.belt with silence := none, state := .stopped, t64 := 4194303 } } .stops))) ∧
    (∀ n, e.belt.silence = some n → 100000 ≤ n → e.belt.state = .stopped →
      exec (.stepSilenceExpiry l) s = .next (handOn e { e with belt := { e.belt with silence := none } })) ∧
    ((∀ n, e.belt.silence = some n → n < 100000) → exec (.stepSilenceExpiry l) s = .next (handOn e e))

/-- A forward step taken in STOPPED or REVERSING raises the count, restarts the silence timer, empties the ring with its own
time as the origin, makes the belt UNSETTLED and makes the row test; it moves no lane and no window (R2, R6, R7, R8, R10).
What the operand between has read ahead stands in g (log 29). -/
def Obligations.ForwardStepUnsettles : Prop :=
  ∀ (l : Lapse) (a b : Bool) (between : Option Claimant) (s e g : State), e = s.elapse l → e.rst.asserted = false →
    g = e.readAhead between →
    ((e.belt.encA, e.belt.encB), (a, b)) ∈ forwardPairs → e.opts.p ≤ e.belt.sub + 1 →
    (e.belt.state = .stopped ∨ e.belt.state = .reversing) →
    ∀ due : Bool, due = (match e.belt.lastRow with
      | none => true
      | some k => decide (0 ≤ diff (e.belt.count + 1) (shift k (e.opts.r : Int)))) →
    ∃ t, exec (.encoderEdge ⟨l, between⟩ a b) s = .next t ∧
      t.belt =
        { count := e.belt.count + 1, sub := 0, encA := a, encB := b, state := .unsettled, silence := some 0, ring := []
          origin := some e.timeBase, t64 := 4194303
          lastRow := if due then some (e.belt.count + 1) else e.belt.lastRow } ∧
      t.scan = (if due then (e.trigger (e.belt.count + 1)).scan else e.scan) ∧ t.former = g.former ∧ t.outlets = e.outlets ∧
      t.gate.state = e.gate.state ∧ t.gate.holders = e.gate.holders ∧ t.gate.current = e.gate.current ∧
      t.table.slots = e.table.slots ∧ t.table.escapes = e.table.escapes ∧ t.table.reports = g.table.reports ∧
      t.rxQueue = g.rxQueue ∧ t.station = e.station ∧ t.store = e.store ∧ t.rst = e.rst ∧
      t.port.response = e.port.response ∧
      ∀ c : Counter, c ≠ .rowOverrun → c ≠ .txDropped → c ≠ .txStale → t.counter c = e.counter c

/-- A forward step taken in UNSETTLED or MOVING raises the count, restarts the silence timer, adds its time to the ring,
recomputes T64 from the ring, makes the belt MOVING with the eighth timestamp, makes the row test and is handed to the outlets,
whose work OutletStepInOrder gives (R2, R6, R7, R8, R10, R11). What the operand between has read ahead stands in g (log 29). -/
def Obligations.ForwardStepMeasures : Prop :=
  ∀ (l : Lapse) (a b : Bool) (between : Option Claimant) (s e g : State), e = s.elapse l → e.rst.asserted = false →
    g = e.readAhead between →
    ((e.belt.encA, e.belt.encB), (a, b)) ∈ forwardPairs → e.opts.p ≤ e.belt.sub + 1 →
    (e.belt.state = .unsettled ∨ e.belt.state = .moving) →
    ∀ due : Bool, due = (match e.belt.lastRow with
      | none => true
      | some k => decide (0 ≤ diff (e.belt.count + 1) (shift k (e.opts.r : Int)))) →
    ∀ belt : Belt,
      (let room : Bool := decide (e.belt.ring.length < 64);
        let ring := if room then e.belt.ring ++ [e.timeBase] else e.belt.ring.drop 1 ++ [e.timeBase];
        let origin := if room then e.belt.origin else e.belt.ring.head?;
        let n := ring.length;
        let dt := (e.timeBase - origin.getD 0).toNat;
        belt =
          { count := e.belt.count + 1, sub := 0, encA := a, encB := b, silence := some 0, ring := ring, origin := origin
            state := if e.belt.state = .unsettled ∧ n < 8 then .unsettled else .moving
            t64 := if 8 ≤ n then max 4000 (min 4194303 (dt * 64 / n)) else 4194303
            lastRow := if due then some (e.belt.count + 1) else e.belt.lastRow }) →
    ∃ t v, exec (.encoderEdge ⟨l, between⟩ a b) s = .next t ∧
      v = State.outletStep (if due then State.trigger { g with belt := belt } belt.count else { g with belt := belt })
        (decide (e.belt.state = .unsettled) && decide (belt.state = .moving)) ∧
      t = handOn e v ∧ t.belt = belt ∧
      t.scan = (if due then (e.trigger (e.belt.count + 1)).scan else e.scan) ∧ t.former = g.former ∧
      t.table.slots = e.table.slots ∧
      t.table.escapes = e.table.escapes ∧ t.rxQueue = g.rxQueue ∧ t.station = e.station ∧ t.store = e.store ∧
      t.rst = e.rst ∧ t.port.response = e.port.response ∧
      ∀ c : Counter, c ≠ .rowOverrun → c ≠ .holdThrough → c ≠ .txDropped → c ≠ .txStale → t.counter c = e.counter c

/-- A backward step, in any belt state, makes the belt REVERSING and sets T64 to 4,194,303; it lowers the count and restarts
the silence timer; the ring and the last row stay, and nothing reaches the scan unit (R5). What the operand between has read
ahead stands in g (log 29). -/
def Obligations.BackwardStepReverses : Prop :=
  ∀ (l : Lapse) (a b : Bool) (between : Option Claimant) (s e g : State), e = s.elapse l → e.rst.asserted = false →
    g = e.readAhead between →
    ((a, b), (e.belt.encA, e.belt.encB)) ∈ forwardPairs → e.belt.sub = 0 →
    ∃ t, exec (.encoderEdge ⟨l, between⟩ a b) s = .next t ∧
      t.belt = { e.belt with
        count := e.belt.count - 1, sub := e.opts.p - 1, encA := a, encB := b, state := .reversing, silence := some 0
        t64 := 4194303 } ∧
      t.scan = e.scan ∧ t.former = g.former ∧ t.outlets.openQ = e.outlets.openQ ∧ t.table.slots = e.table.slots ∧
      t.table.escapes = e.table.escapes ∧ t.rxQueue = g.rxQueue ∧ t.station = e.station ∧ t.store = e.store ∧
      t.rst = e.rst ∧ t.port.response = e.port.response ∧
      ∀ c : Counter, c ≠ .txDropped → c ≠ .txStale → t.counter c = e.counter c

/-! ### Scan unit -/

/-- A row trigger is ignored on a blind station and in SETUP; otherwise, with no sweep in flight, it begins one, taken at once
by a free converter pair and pending behind a busy one; and with a sweep in flight it is counted and its row count held while
the list holds fewer than 8 (R18, R23). -/
def Obligations.RowTriggerAcceptance : Prop :=
  ∀ (s : State) (row : Count),
    (s.opts.scan = false ∨ s.station.state = .setup → s.trigger row = s) ∧
    (s.opts.scan = true → s.station.state ≠ .setup →
      (s.scan.sweep = none → s.scan.job = none →
        s.trigger row = { s with
          scan := { s.scan with sweep := some ⟨row, true, []⟩, job := some .sweep, jobTime := 0 } }) ∧
      (s.scan.sweep = none → s.scan.job ≠ none →
        s.trigger row = { s with scan := { s.scan with sweep := some ⟨row, false, []⟩ } }) ∧
      ∀ w, s.scan.sweep = some w →
        (s.trigger row).counter .rowOverrun = saturatingInc (s.counter .rowOverrun) ∧
        (s.trigger row).scan = { s.scan with
          sweep := some { w with overrun := if w.overrun.length < 8 then w.overrun ++ [row] else w.overrun } } ∧
        ∀ c : Counter, c ≠ .rowOverrun → (s.trigger row).counter c = s.counter c)

/-- A free converter pair takes a pending sweep, else a pending SAMPLE, else a pending auxiliary conversion, which leaves
the pending set, and its running time begins at 0; with none pending it stays free, and a busy pair takes nothing (R17). A
completed sweep forms each lane's cell against the baseline as it stood, moves the baselines of empty lanes by a fourth in
JOINING and a thirty-second otherwise, sets CURTAIN-FAULT from bit 40, and in RUNNING and PAUSED delivers its row and a
repeated row for each overrun; the pair takes its next job (R17, R19, R20, R21, R22, R23, R24). -/
def Obligations.SweepCompletes : Prop :=
  (∀ c : Scan,
    (c.job ≠ none → c.arbitrate = c) ∧
    (c.job = none →
      (∀ w, c.sweep = some w → w.taken = false →
        c.arbitrate = { c with job := some .sweep, jobTime := 0, sweep := some { w with taken := true } }) ∧
      ((∀ w, c.sweep = some w → w.taken = true) →
        (∀ ch, c.sampleWait = some ch →
          c.arbitrate = { c with job := some (.sample ch true), jobTime := 0, sampleWait := none }) ∧
        (∀ a, c.sampleWait = none → c.auxWait = some a →
          c.arbitrate = { c with job := some (.aux a), jobTime := 0, auxWait := none }) ∧
        (c.sampleWait = none → c.auxWait = none → c.arbitrate = c)))) ∧
  ∀ (l : Lapse) (raw : Vector RawPair 32) (curtain : BitVec 40) (s e : State) (w : Sweep), e = s.elapse l →
    e.rst.asserted = false → e.scan.job = some .sweep → e.scan.sweep = some w → 64 ≤ e.scan.jobTime →
    (let fault := curtain.getLsbD 39;
      let k : Int := if e.station.state = .joining then 4 else 32;
      let cell := fun n : Fin 32 =>
        let ic := raw[n].i.toInt - e.scan.base[n].i0;
        let qc := raw[n].q.toInt - e.scan.base[n].q0;
        let beam := !fault && curtain.getLsbD n.val;
        ({ ic := ic, qc := qc, blocked := beam, occupied := beam || decide (e.opts.tCell ≤ ic.natAbs + qc.natAbs) } : Cell);
      let r : RowRecord :=
        { row := w.row, cells := Vector.ofFn cell, repeated := false, coilWeak := e.scan.coilWeak, curtainFault := fault };
      let rows := if e.station.state = .running ∨ e.station.state = .paused then
          r :: w.overrun.map (fun c => { r with row := c, repeated := true })
        else [];
      exec (.sweepComplete l raw curtain) s =
        .next (handOn e { e with
          scan := Scan.arbitrate { e.scan with
            job := none
            jobTime := 0
            sweep := none
            lastSwept := some r
            curtainFault := fault
            base := Vector.ofFn fun n => if (cell n).occupied then e.scan.base[n] else
              { i0 := e.scan.base[n].i0 + (cell n).ic.tdiv k, q0 := e.scan.base[n].q0 + (cell n).qc.tdiv k } }
          former := { e.former with rows := e.former.rows ++ rows } }))

/-- An auxiliary tick, 1,024 µs after the last, makes a conversion of the next channel pending and changes the next channel,
unless one is pending; before its time it does nothing (R25). A SAMPLE makes its channel's conversion pending and leaves the
response incomplete; its completion places the raw pair of a lane, or the value of an auxiliary channel, in the response and
moves no baseline, band or COIL-WEAK; a replaced one's result is discarded (R16, R17, R29). -/
def Obligations.TicksAndSamples : Prop :=
  (∀ (l : Lapse) (s e : State), e = s.elapse l → e.rst.asserted = false →
    (1024 ≤ e.scan.auxTimer → e.scan.auxWait = none →
      exec (.auxiliaryTick l) s = .next (handOn e { e with
        scan := Scan.arbitrate { e.scan with
          auxTimer := e.scan.auxTimer - 1024
          auxWait := some e.scan.nextAux
          nextAux := if e.scan.nextAux = .supply then .coil else .supply } })) ∧
    (1024 ≤ e.scan.auxTimer → e.scan.auxWait ≠ none →
      exec (.auxiliaryTick l) s = .next (handOn e { e with scan := { e.scan with auxTimer := e.scan.auxTimer - 1024 } })) ∧
    (e.scan.auxTimer < 1024 → exec (.auxiliaryTick l) s = .next (handOn e e))) ∧
  (∀ (t : Transaction) (c : Byte) (rest : List Byte) (s e : State), e = s.elapse t.lapse → e.rst.asserted = false →
    t.selected ≤ e.rst.sinceEnd → e.store.writing = none → t.args = c :: rest → c.toNat < 34 →
    exec (.sample t) s = .next (handOn e { e.discardResponse with
      scan := Scan.arbitrate { e.discardResponse.scan with
        sampleWait := some (if h : c.toNat < 32 then .lane ⟨c.toNat, h⟩ else if c.toNat = 32 then .aux .supply
          else .aux .coil) } })) ∧
  ∀ (l : Lapse) (r : RawPair) (ch : Channel) (s e : State), e = s.elapse l → e.rst.asserted = false →
    2 ≤ e.scan.jobTime →
    (e.scan.job = some (.sample ch true) →
      exec (.sampleComplete l r) s = .next (handOn e { e with
        port := { e.port with response := some ⟨.ok, match ch with
          | .lane _ => bytesOf 2 (r.i.signExtend 16).toNat ++ bytesOf 2 (r.q.signExtend 16).toNat
          | .aux _ => bytesOf 2 (r.i.toInt + 2048).toNat⟩ }
        scan := Scan.arbitrate { e.scan with job := none, jobTime := 0 } })) ∧
    (e.scan.job = some (.sample ch false) →
      exec (.sampleComplete l r) s = .next (handOn e { e with
        scan := Scan.arbitrate { e.scan with job := none, jobTime := 0 } }))

/-- A completed auxiliary conversion: a SUPPLY value goes to the band's debounce, a change of band closes the lanes above the new
budget, and where the band stays nothing else changes; a COIL value runs toward a change of COIL-WEAK, which the fourth such
value makes. With an invalid block neither value is taken: the band and COIL-WEAK are held. The pair takes its next job (R17,
R25, R27, R28, R30, R105). -/
def Obligations.AuxiliaryValueTaken : Prop :=
  ∀ (l : Lapse) (result : Raw) (s e : State), e = s.elapse l → e.rst.asserted = false → 2 ≤ e.scan.jobTime →
    (e.valid = true →
      (let v := (result.toInt + 2048).toNat;
        (e.scan.job = some (.aux .supply) → (e.scan.takeSupply e.opts v).band = e.scan.band →
          exec (.auxiliaryConversionComplete l result) s = .next (handOn e { e with
            scan := Scan.arbitrate { e.scan.takeSupply e.opts v with job := none, jobTime := 0 } })) ∧
        (e.scan.job = some (.aux .supply) → (e.scan.takeSupply e.opts v).band ≠ e.scan.band →
          ∀ d : State, d = State.dropToBudget { e with scan := e.scan.takeSupply e.opts v } →
            d.scan = e.scan.takeSupply e.opts v ∧
            exec (.auxiliaryConversionComplete l result) s = .next (handOn e { d with
              scan := Scan.arbitrate { d.scan with job := none, jobTime := 0 } })) ∧
        (e.scan.job = some (.aux .coil) →
          exec (.auxiliaryConversionComplete l result) s = .next (handOn e { e with
            scan := Scan.arbitrate { e.scan with
              job := none
              jobTime := 0
              coilWeak := if decide (v < e.opts.coilFloor) ≠ e.scan.coilWeak ∧ 3 ≤ e.scan.coilRun then !e.scan.coilWeak
                else e.scan.coilWeak
              coilRun := if decide (v < e.opts.coilFloor) ≠ e.scan.coilWeak ∧ e.scan.coilRun < 3 then e.scan.coilRun + 1
                else 0 } })))) ∧
    (e.valid = false → ∀ c, e.scan.job = some (.aux c) →
      exec (.auxiliaryConversionComplete l result) s = .next (handOn e { e with
        scan := Scan.arbitrate { e.scan with job := none, jobTime := 0 } }))

/-- The target band of a SUPPLY value is the table's (R26). Four consecutive SUPPLY values with one target change the band
to it, three leave it, and a value whose target is the band in force begins the run again (R27). A drop to the budget closes
lanes until as many are OPEN as the budget allows: the latest opened first, the higher number between equal times; each
counts BAND-DROP-CLOSE, and each window of the close queue whose grant holds closed lanes loses them and is LANES-TRIMMED,
the rest of its grant and its other fields kept, and every other window and lane untouched (R105; a closed lane's times are
dropped, log 26). -/
def Obligations.BandRules : Prop :=
  (∀ (o : Options) (v : Nat),
    targetBand o .fault v = (if o.lowRise ≤ v then .normal else if o.faultRise ≤ v ∧ v < o.lowRise then .low else .fault) ∧
    targetBand o .low v = (if v < o.faultFall then .fault else if v < o.lowRise then .low else .normal) ∧
    targetBand o .normal v = (if v < o.faultFall then .fault else if o.lowFall ≤ v then .normal else .low)) ∧
  (∀ (o : Options) (c : Scan) (b : Band) (v1 v2 v3 v4 : Nat), c.bandRun ≤ 3 →
    (targetBand o c.band v1 = c.band → (c.takeSupply o v1).band = c.band ∧ (c.takeSupply o v1).bandRun = 0) ∧
    (b ≠ c.band → (c.bandRun = 0 ∨ c.candidate ≠ some b) →
      targetBand o c.band v1 = b → targetBand o c.band v2 = b → targetBand o c.band v3 = b →
      targetBand o c.band v4 = b →
      (((c.takeSupply o v1).takeSupply o v2).takeSupply o v3).band = c.band ∧
        ((((c.takeSupply o v1).takeSupply o v2).takeSupply o v3).takeSupply o v4).band = b)) ∧
  ∀ s t : State, t = s.dropToBudget →
    (let k := s.outlets.openCount - s.budget;
      let age := fun n : Fin 32 => (s.timeBase - s.outlets.lanes[n].openedAt.getD s.timeBase).toNat;
      let shut := fun n : Fin 32 => s.outlets.lanes[n].state = .opened ∧ t.outlets.lanes[n].state ≠ .opened;
      t.outlets.openCount = s.outlets.openCount - k ∧
      (∀ n : Fin 32, t.outlets.lanes[n] = s.outlets.lanes[n] ∨
        (shut n ∧ t.outlets.lanes[n] = { state := .closed, holders := 0, openedAt := none, coolUntil := none, test := none })) ∧
      (∀ n m : Fin 32, shut n → t.outlets.lanes[m].state = .opened → age n < age m ∨ (age n = age m ∧ m < n)) ∧
      (∃ gone : LaneSet, (∀ n : Fin 32, gone.getLsbD n.val = true ↔ shut n) ∧
        t.outlets.closeQ = s.outlets.closeQ.map fun w =>
          if w.grant &&& gone = 0 then w
          else { w with grant := w.grant &&& ~~~gone, flags := { w.flags with lanesTrimmed := true } }) ∧
      t.outlets.openQ = s.outlets.openQ ∧
      (t.counter .bandDropClose).toNat = min (2 ^ 32 - 1) ((s.counter .bandDropClose).toNat + k) ∧
      (∀ c : Counter, c ≠ .bandDropClose → t.counter c = s.counter c) ∧
      t = { s with outlets := t.outlets, counters := t.counters })

/-! ### Piece former -/

/-- A row whose runs share no holder: no two of them contact one open piece or one LONG predecessor, and none contacts two open
pieces. Each run that contacts an open piece joins it; every other run opens a piece, in lane order, with the next tags, the
row's count as its lead and the sums of its lanes; either is CONTINUED when its run contacts a LONG predecessor, and the
predecessors are dropped. The pieces that gain no run close, and those that reach 255 rows close LONG and leave their runs as
predecessors; their records are offered by lead, and between equal leads by the lowest lane in the last row they gained (R33 to
R41; the offers are RowClosesPiece's). -/
def Obligations.RowTaken : Prop :=
  ∀ (l : Lapse) (left : Nat) (row : RowRecord) (rest : List RowRecord) (runs : List LaneRun)
    (closing : List (OpenPiece × Bool)) (s e : State), e = s.elapse l → e.rst.asserted = false →
    e.former.rows = row :: rest → e.former.offers = [] → runs.Pairwise (fun r r' => r.hi + 1 < r'.lo) →
    (∀ r ∈ runs, r.lo ≤ r.hi ∧ r.hi < 32) →
    (∀ n : Fin 32, row.cells[n].occupied = runs.any fun r => decide (r.lo ≤ n.val ∧ n.val ≤ r.hi)) →
    (let meets := fun (r : LaneRun) (held : List LaneRun) => held.any fun h => decide (r.lo ≤ h.hi + 1 ∧ h.lo ≤ r.hi + 1);
      let longed := fun r : LaneRun => e.former.longRuns.any (meets r);
      let lanes := fun r : LaneRun => (List.finRange 32).filter fun n => decide (r.lo ≤ n.val ∧ n.val ≤ r.hi);
      let gains := fun (x : OpenPiece) (r : LaneRun) =>
        { x with
          lastRow := row.row, n := x.n + (r.hi - r.lo + 1), nc := x.nc + (lanes r).countP fun n => row.cells[n].blocked
          sumI := x.sumI + ((lanes r).map fun n => row.cells[n].ic).sum
          sumQ := x.sumQ + ((lanes r).map fun n => row.cells[n].qc).sum
          sumLane := x.sumLane + ((lanes r).map fun n => n.val).sum
          first := min x.first r.lo, last := max x.last r.hi
          rows := x.rows + 1, repeated := x.repeated + if row.repeated then 1 else 0
          coilMark := x.coilMark || row.coilWeak, curtainMark := x.curtainMark || row.curtainFault
          edge := x.edge || decide (r.lo = 0 ∨ r.hi = 31), continued := x.continued || longed r, runs := [r] };
      let opens := fun (tag : Tag) (r : LaneRun) => (
        { tag := tag, lead := row.row, lastRow := row.row, n := r.hi - r.lo + 1
          nc := (lanes r).countP fun n => row.cells[n].blocked
          sumI := ((lanes r).map fun n => row.cells[n].ic).sum, sumQ := ((lanes r).map fun n => row.cells[n].qc).sum
          sumLane := ((lanes r).map fun n => n.val).sum, first := r.lo, last := r.hi, rows := 1
          repeated := if row.repeated then 1 else 0, coilMark := row.coilWeak, curtainMark := row.curtainFault
          edge := decide (r.lo = 0 ∨ r.hi = 31), continued := longed r, runs := [r] } : OpenPiece);
      let joined := e.former.pieces.filterMap fun p => (runs.find? fun r => meets r p.runs).map (gains p);
      let free := runs.filter fun r => !e.former.pieces.any fun p => meets r p.runs;
      let opened := free.zipIdx.map fun (r, k) => opens (e.former.tag + BitVec.ofNat 12 k) r;
      let all := joined ++ opened;
      let ended := e.former.pieces.filter fun p => !runs.any fun r => meets r p.runs;
      let long := all.filter fun p => decide (255 ≤ p.rows);
      let lowest := fun p : OpenPiece => p.runs.foldl (fun a r => min a r.lo) 32;
      (∀ r ∈ runs, ∀ r' ∈ runs, ∀ held ∈ e.former.pieces.map OpenPiece.runs ++ e.former.longRuns,
        meets r held = true → meets r' held = true → r = r') →
      (∀ r ∈ runs, (e.former.pieces.countP fun p => meets r p.runs) ≤ 1) →
      closing.Perm (ended.map (fun p => (p, false)) ++ long.map fun p => (p, true)) →
      closing.Pairwise (fun a b => 0 < diff b.1.lead a.1.lead ∨ (b.1.lead = a.1.lead ∧ lowest a.1 < lowest b.1)) →
      exec (.rowRecord ⟨l, left⟩) s = .next (handOn e (State.makeOffers { e with
        former := { e.former with
          rows := rest, pieces := all.filter fun p => decide (p.rows < 255), longRuns := long.map OpenPiece.runs
          tag := e.former.tag + BitVec.ofNat 12 opened.length
          offers := closing.map fun x => x.1.record e.opts.r e.opts.tMetal x.2 } } left)))

/-- A row of any runs, taken by groups: runs that contact one open piece or one LONG predecessor, directly or through a chain
of such contacts, are one group, and runs of different groups share no holder. A group that contacts open pieces joins them:
of several the one with the earliest lead, or of equal leads the one opened first, survives with its tag, lead and rows, takes
the sums, lanes and marks of the others, which cease to exist without a record, and gains every run of the group. A group that
contacts no open piece opens one, in the order of the groups' lowest lanes, with the next tags. Either is CONTINUED when its
group contacts a LONG predecessor, and the predecessors are dropped. The pieces that gain no run close, and those that reach
255 rows close LONG and leave their runs as predecessors; their records are offered by lead, and between equal leads by the
lowest lane in the last row they gained (R33 to R41; that one open piece of each group is earliest is a premise, since R3
compares counts within half their range alone). -/
def Obligations.RowsJoinAndMerge : Prop :=
  ∀ (l : Lapse) (left : Nat) (row : RowRecord) (rest : List RowRecord) (groups : List (List LaneRun))
    (closing : List (OpenPiece × Bool)) (s e : State), e = s.elapse l → e.rst.asserted = false →
    e.former.rows = row :: rest → e.former.offers = [] →
    (∀ r ∈ groups.flatten, r.lo ≤ r.hi ∧ r.hi < 32) →
    groups.flatten.Pairwise (fun r r' => r.hi + 1 < r'.lo ∨ r'.hi + 1 < r.lo) →
    (∀ n : Fin 32, row.cells[n].occupied = groups.flatten.any fun r => decide (r.lo ≤ n.val ∧ n.val ≤ r.hi)) →
    (∀ g ∈ groups, g ≠ [] ∧ g.Pairwise fun r r' => r.lo < r'.lo) →
    groups.Pairwise (fun g g' => ∀ r ∈ g.head?, ∀ r' ∈ g'.head?, r.lo < r'.lo) →
    (let meets := fun (r : LaneRun) (held : List LaneRun) => held.any fun h => decide (r.lo ≤ h.hi + 1 ∧ h.lo ≤ r.hi + 1);
      let holders := e.former.pieces.map OpenPiece.runs ++ e.former.longRuns;
      let contacts := fun (g : List LaneRun) (held : List LaneRun) => g.any fun r => meets r held;
      let met := fun g : List LaneRun => e.former.pieces.zipIdx.filter fun x => contacts g x.1.runs;
      let survives := fun (g : List LaneRun) (x : OpenPiece × Nat) => (met g).all fun y =>
        decide (y.2 = x.2 ∨ 0 < diff y.1.lead x.1.lead ∨ (y.1.lead = x.1.lead ∧ x.2 < y.2));
      let merged := fun (g : List LaneRun) (x : OpenPiece) =>
        let all := (met g).map Prod.fst;
        { x with
          n := (all.map OpenPiece.n).sum, nc := (all.map OpenPiece.nc).sum, sumI := (all.map OpenPiece.sumI).sum
          sumQ := (all.map OpenPiece.sumQ).sum, sumLane := (all.map OpenPiece.sumLane).sum
          first := all.foldl (fun a y => min a y.first) x.first, last := all.foldl (fun a y => max a y.last) x.last
          edge := all.any OpenPiece.edge, continued := all.any OpenPiece.continued, coilMark := all.any OpenPiece.coilMark
          curtainMark := all.any OpenPiece.curtainMark };
      let gains := fun (g : List LaneRun) (x : OpenPiece) =>
        let lanes := (List.finRange 32).filter fun n => g.any fun r => decide (r.lo ≤ n.val ∧ n.val ≤ r.hi);
        { x with
          lastRow := row.row, n := x.n + lanes.length, nc := x.nc + lanes.countP fun n => row.cells[n].blocked
          sumI := x.sumI + (lanes.map fun n => row.cells[n].ic).sum
          sumQ := x.sumQ + (lanes.map fun n => row.cells[n].qc).sum
          sumLane := x.sumLane + (lanes.map fun n => n.val).sum
          first := lanes.foldl (fun a n => min a n.val) x.first, last := lanes.foldl (fun a n => max a n.val) x.last
          rows := x.rows + 1, repeated := x.repeated + if row.repeated then 1 else 0
          coilMark := x.coilMark || row.coilWeak, curtainMark := x.curtainMark || row.curtainFault
          edge := x.edge || lanes.any fun n => decide (n.val = 0 ∨ n.val = 31)
          continued := x.continued || e.former.longRuns.any (contacts g), runs := g };
      let new := fun tag : Tag => (
        { tag := tag, lead := row.row, lastRow := row.row, n := 0, nc := 0, sumI := 0, sumQ := 0, sumLane := 0, first := 31
          last := 0, rows := 0, repeated := 0, coilMark := false, curtainMark := false, edge := false, continued := false
          runs := [] } : OpenPiece);
      let joined := e.former.pieces.zipIdx.filterMap fun x =>
        (groups.find? fun g => contacts g x.1.runs && survives g x).map fun g => gains g (merged g x.1);
      let opened := (groups.filter fun g => (met g).isEmpty).zipIdx.map fun (g, k) =>
        gains g (new (e.former.tag + BitVec.ofNat 12 k));
      let all := joined ++ opened;
      let ended := e.former.pieces.filter fun p => !groups.any fun g => contacts g p.runs;
      let long := all.filter fun p => decide (255 ≤ p.rows);
      let lowest := fun p : OpenPiece => p.runs.foldl (fun a r => min a r.lo) 32;
      groups.Pairwise (fun g g' => ∀ held ∈ holders, ¬(contacts g held = true ∧ contacts g' held = true)) →
      (∀ g ∈ groups, ∀ part : LaneRun → Bool, (∃ r ∈ g, part r = true) → (∃ r ∈ g, part r = false) →
        ∃ held ∈ holders, ∃ r ∈ g, ∃ r' ∈ g, part r = true ∧ part r' = false ∧ meets r held = true ∧ meets r' held = true) →
      (∀ g ∈ groups, met g = [] ∨ ∃ x ∈ met g, survives g x = true) →
      closing.Perm (ended.map (fun p => (p, false)) ++ long.map fun p => (p, true)) →
      closing.Pairwise (fun a b => 0 < diff b.1.lead a.1.lead ∨ (b.1.lead = a.1.lead ∧ lowest a.1 < lowest b.1)) →
      exec (.rowRecord ⟨l, left⟩) s = .next (handOn e (State.makeOffers { e with
        former := { e.former with
          rows := rest, pieces := all.filter fun p => decide (p.rows < 255), longRuns := long.map OpenPiece.runs
          tag := e.former.tag + BitVec.ofNat 12 opened.length
          offers := closing.map fun x => x.1.record e.opts.r e.opts.tMetal x.2 } } left)))

/-- An open piece that gains no run of a row closes: its record, with the trail of R39, the class of R42 and R43 and the
fields of R44, joins a local piece queue of fewer than 4, and is dropped and counted otherwise (R39, R42, R43, R44, R45).
Where left is not 0 the record waits, and a later ROW_RECORD makes the offers that wait, all but its own left, one after
another, before a row is taken, each joining a queue of fewer than 4 or dropped and counted: so the table can take a record
between two offers (R45; the operand is the model's, log 28). -/
def Obligations.RowClosesPiece : Prop :=
  (∀ (l : Lapse) (left : Nat) (row : RowRecord) (rest : List RowRecord) (p : OpenPiece) (s e : State), e = s.elapse l →
    e.rst.asserted = false → e.former.rows = row :: rest → e.former.pieces = [p] → e.former.offers = [] →
    (∀ n : Fin 32, row.cells[n].occupied = false) →
    (let mean := min 65535 ((p.sumI.natAbs + p.sumQ.natAbs) / p.n);
      let cls : PieceClass :=
        if p.coilMark = true ∨ p.rows < 2 * p.repeated then .unknown
        else if mean < e.opts.tMetal then .inert
        else if 0 < p.sumI ∧ (p.sumQ.natAbs : Int) ≤ p.sumI then .ferrous
        else if 0 < p.sumI then .steelLow
        else if 2 * p.sumQ.natAbs ≤ p.sumI.natAbs then .nonferrous
        else .board;
      let record : PieceRecord :=
        { tag := p.tag, lead := p.lead, trail := shift p.lastRow ((e.opts.r : Int) - 1), first := p.first, last := p.last
          centroid := (p.sumLane + p.n / 2) / p.n, n := p.n, nc := p.nc, sumI := p.sumI, sumQ := p.sumQ, cls := cls
          flags := { long := false, continued := p.continued, edge := p.edge
                     coilOnly := decide (p.nc = 0 ∧ p.curtainMark = false) } };
      let f : Former := { e.former with pieces := [], longRuns := [], rows := rest };
      (left = 0 → e.former.queue.length < 4 →
        exec (.rowRecord ⟨l, left⟩) s = .next (handOn e { e with
          former := { f with queue := e.former.queue ++ [record] } })) ∧
      (left = 0 → 4 ≤ e.former.queue.length →
        exec (.rowRecord ⟨l, left⟩) s = .next (handOn e (State.bump { e with former := f } .pieceDropped))) ∧
      (left ≠ 0 → exec (.rowRecord ⟨l, left⟩) s = .next (handOn e { e with former := { f with offers := [record] } })))) ∧
  (∀ (l : Lapse) (left : Nat) (s e : State), e = s.elapse l → e.rst.asserted = false → e.former.offers ≠ [] →
    exec (.rowRecord ⟨l, left⟩) s = .next (handOn e (e.makeOffers left))) ∧
  ∀ (left : Nat) (s t : State), t = s.makeOffers left →
    (let made := s.former.offers.length - left;
      let room := min made (4 - s.former.queue.length);
      t = { s with former := t.former, counters := t.counters } ∧
      t.former = { s.former with
        queue := s.former.queue ++ s.former.offers.take room, offers := s.former.offers.drop made } ∧
      (t.counter .pieceDropped).toNat = min (2 ^ 32 - 1) ((s.counter .pieceDropped).toNat + (made - room)) ∧
      ∀ c : Counter, c ≠ .pieceDropped → t.counter c = s.counter c)

/-! ### Track table and decision -/

/-- The PIECE notice of a settlement is requested while the station is RUNNING or PAUSED with the mute flag clear and a station
with a greater S is heard, its slot PRESENT or QUIET; otherwise nothing is requested (R66, R170). Its priority follows the
headroom to the acting peer of smallest S, then smallest S + O: below 256 steps 1, below 1,024 steps 2, otherwise 3, and 3
without such a peer (R148). It joins the transmit queue behind every notice of lower or equal ARB, and is dropped and counted
at a full queue (R140, R141). An ESCAPE notice joins with priority 6 in the same way, whatever the roster (R68, R151). -/
def Obligations.PieceNoticeRequested : Prop :=
  ∀ (s : State) (p : PieceNotice) (x : EscapeNotice),
    (let permitted := decide (s.station.state = .running ∨ s.station.state = .paused) && !s.station.mute;
      let joins := fun (arb : Nat) (body : Body) (t : State) =>
        (s.link.queue.length < 16 → t = { s with link := { s.link with queue := queueWith ⟨arb, body, false⟩ s.link.queue } }) ∧
        (16 ≤ s.link.queue.length → t = s.bump .txDropped);
      let acting := fun f : HelloFields => f ∈ s.listeners ∧ f.kind ≠ .nothing ∧ f.station = .running;
      (∀ f : HelloFields, f ∈ s.listeners ↔ s.opts.s < f.s ∧ ∃ n : Fin 16,
        (s.station.roster[n].state = .present ∨ s.station.roster[n].state = .quiet) ∧ s.station.roster[n].fields = some f) ∧
      (permitted = false ∨ s.listeners = [] → s.requestPiece p = s) ∧
      (permitted = true → s.listeners ≠ [] →
        ((∀ f, ¬acting f) → joins (16 * 3 + s.station.number.val) (.piece p) (s.requestPiece p)) ∧
        ∀ f, acting f → (∀ g, acting g → f.s < g.s ∨ (f.s = g.s ∧ f.s + f.o ≤ g.s + g.o)) →
          (let headroom : Int := (f.s : Int) + (f.o : Int) - ((s.opts.s : Int) + diff s.belt.count p.lead);
            joins (16 * (if headroom < 256 then 1 else if headroom < 1024 then 2 else 3) + s.station.number.val) (.piece p)
              (s.requestPiece p))) ∧
      (permitted = false → s.requestEscape x = s) ∧
      (permitted = true → joins (16 * 6 + s.station.number.val) (.escape x) (s.requestEscape x)))

/-- An OPENED report makes its entry ACTING with the grant and flags it carries. A SETTLED report frees its slot, raises the
verdict's counter and, for a DENIED, its cause's, and then requests the PIECE notice: the entry's tag, the flags of its local
part, or of the report whose geometry it holds, its lead, length, lanes and area, its effective class and the verdict (R52, R66,
R67, R73, R147; what a request does is PieceNoticeRequested). -/
def Obligations.ReportsServed : Prop :=
  ∀ (l : Lapse) (i : Fin 128) (en : Entry) (d : Decision) (x : Option Reading) (s e g : State), e = s.elapse l →
    e.rst.asserted = false → g.table.slots[i] = some en → en.decision = some d →
    (∀ (granted : LaneSet) (flags : WindowFlags),
      e.takeRequest .report TableRequest.isOpened = some (⟨.report (.opened i granted flags), x⟩, g) →
      exec (.opened l) s = .next (handOn e { g with
        table := { g.table with
          slots := g.table.slots.set i (some { en with
            state := .acting, decision := some { d with granted := granted, flags := flags } }) } })) ∧
    (∀ (v : Verdict) (cause : Option DenialCause) (flags : WindowFlags),
      e.takeRequest .report TableRequest.isSettled = some (⟨.report (.settled i v cause flags), x⟩, g) →
      (let freed := State.bump { g with table := { g.table with slots := g.table.slots.set i none } } (.verdict v d.cls);
        let counted := match v, cause with
          | .denied, some .budget => freed.bump .deniedBudget
          | .denied, some .blocked => freed.bump .deniedBlocked
          | .denied, some .queue => freed.bump .deniedQueue
          | .denied, some .unsettled => freed.bump .deniedUnsettled
          | _, _ => freed;
        exec (.settled l) s = .next (handOn e (counted.requestPiece
          { tag := en.tag.getD 0
            flags := match en.own with
              | some o => o.flags
              | none => en.geomFlags
            lead := en.lead, length := (en.trail - en.lead).toNat + 1, first := en.first, last := en.last
            centroid := en.centroid, area := en.area, cls := d.cls, verdict := v }))))

/-- A local piece is written into the EXPECTED entry it matches, which keeps its reports and expectation and drops its
deadline; or else, with a slot FREE, it makes an entry in the lowest one, with the report and the escape source of the
escape record it matches, which leaves the list and whose sender is sent an ESCAPE, or with neither. Of several that match,
the one of the smallest count difference is chosen, then of the earlier reference count, then of the lower slot, or the
record nearer the front (R53 to R56). The entry is decided at once, as EntryDecided in Safety writes out: a non-target
settles REMOVED or PASSED, and on a GATE station is PASSING until trail + O; a target's window runs from lead + O − pre
margin to trail + O + post margin, cut at W_max, with the lane span of R84 on a LANES station: without room in the open
queue it settles DENIED, cause QUEUE; on a MOVING belt with its close point already due, LATE; otherwise its window joins
the open queue behind every window of earlier or equal open point, LATE-OPEN when on a MOVING belt the open point is already
due, and it is DUE. The readings are those made ahead of an encoder edge (log 29), or those of now (R61, R68, R75, R77, R78,
R80 to R88, R91). -/
def Obligations.LocalPieceDecided : Prop :=
  ∀ (l : Lapse) (p : PieceRecord) (x : Option Reading) (rd : Reading) (i : Fin 128) (en : Entry) (s e g h : State),
    e = s.elapse l → e.rst.asserted = false →
    e.takeRequest .localPiece (TableRequest.isOf .localPiece) = some (⟨.localPiece p, x⟩, g) →
    rd = x.getD
      { mode := g.station.mode, count := g.belt.count, belt := g.belt.state, lead := lead g.belt.t64 g.opts.d
        room := decide (g.outlets.openQ.length < 32) } →
    (let own : LocalPart := { cls := p.cls, sumI := p.sumI, sumQ := p.sumQ, nc := p.nc, flags := p.flags };
      let fresh := fun (reports : List PeerReport) (source : Option (Fin 16 × Tag)) => (
        { state := en.state, tag := some p.tag, lead := p.lead, trail := p.trail, first := p.first, last := p.last
          centroid := p.centroid, area := p.n, own := some own, reports := reports, escapeSource := source
          expectation := none, deadline := none, decision := none, geomFlags := p.flags } : Entry);
      let meets := fun (ref : Count) (half first last : Nat) =>
        (diff p.lead ref).natAbs ≤ half ∧ p.first ≤ last + g.opts.peerWiden ∧ first ≤ p.last + g.opts.peerWiden;
      let nearer := fun (a b : Count) (before : Prop) =>
        (diff p.lead a).natAbs < (diff p.lead b).natAbs ∨
          ((diff p.lead a).natAbs = (diff p.lead b).natAbs ∧ (0 < diff b a ∨ (a = b ∧ before)));
      let expects := fun (j : Fin 128) (o : Entry) (v : Expectation) =>
        g.table.slots[j] = some o ∧ o.state = .expected ∧ o.expectation = some v ∧ meets v.e v.h o.first o.last;
      let lowestFree := g.table.slots[i] = none ∧ ∀ j : Fin 128, j < i → g.table.slots[j].isSome = true;
      let watched := fun (k : Nat) (r : EscapeRecord) => g.table.escapes[k]? = some r ∧ meets r.e r.h r.first r.last;
      ((∃ o v, expects i o v ∧ (∀ j o' v', j ≠ i → expects j o' v' → nearer v.e v'.e (i < j)) ∧ h = g ∧
          en = { o with
            tag := some p.tag, lead := p.lead, trail := p.trail, first := p.first, last := p.last, centroid := p.centroid
            area := p.n, own := some own, deadline := none }) ∨
        ((∀ j o v, ¬expects j o v) ∧ lowestFree ∧ (∀ k r, ¬watched k r) ∧ h = g ∧ en = fresh [] none) ∨
        ((∀ j o v, ¬expects j o v) ∧ lowestFree ∧ ∃ k r, watched k r ∧
          (∀ k' r', k' ≠ k → watched k' r' → nearer r.e r'.e (k < k')) ∧
          h = State.requestEscape { g with
              table := { g.table with escapes := g.table.escapes.take k ++ g.table.escapes.drop (k + 1) } }
            { target := r.station, tag := r.tag, cls := p.cls } ∧
          en = fresh [{ station := r.station, s := r.s, tag := r.tag, cls := r.cls, verdict := r.verdict, area := r.area
                        flags := r.flags, lead := r.e, length := r.length, first := r.first, last := r.last
                        centroid := r.centroid }] (some (r.station, r.tag)))) →
      (let cls := if p.cls = .ferrous ∨ ∃ y ∈ en.reports, y.cls = .ferrous then PieceClass.ferrous
          else if p.cls ≠ .unknown then p.cls
          else match chosenReport en.reports with
            | some y => y.cls
            | none => .unknown;
        EntryDecided h rd i en cls p.flags 0 fun t => exec (.localPiece l) s = .next (handOn e t)))

/-- A local piece that finds every slot in use, and matches none of the EXPECTED entries among them by the half-window H
around E and the widened lane spans (R53), is settled DENIED with cause QUEUE without an entry: TABLE-FULL, DENIED-QUEUE and
its verdict counter rise, and its PIECE notice is requested, with the class of the former and the record's own fields (R56,
R66, R67, R73, R147). -/
def Obligations.LocalPieceFindsTableFull : Prop :=
  ∀ (l : Lapse) (p : PieceRecord) (x : Option Reading) (s e g : State), e = s.elapse l → e.rst.asserted = false →
    e.takeRequest .localPiece (TableRequest.isOf .localPiece) = some (⟨.localPiece p, x⟩, g) →
    (∀ j : Fin 128, ∃ en : Entry, g.table.slots[j] = some en ∧
      ∀ v, en.state = .expected → en.expectation = some v →
        ¬((diff p.lead v.e).natAbs ≤ v.h ∧ p.first ≤ en.last + g.opts.peerWiden ∧ en.first ≤ p.last + g.opts.peerWiden)) →
    exec (.localPiece l) s = .next (handOn e
      ((((g.bump .tableFull).bump (.verdict .denied p.cls)).bump .deniedQueue).requestPiece
        { tag := p.tag, flags := p.flags, lead := p.lead, length := (p.trail - p.lead).toNat + 1, first := p.first
          last := p.last, centroid := p.centroid, area := p.n, cls := p.cls, verdict := .denied }))

/-- A receive record is placed at dist = S − line position: below −H it is passed by. A report of a piece still on the belt
that matches entries in use joins the list of the one of the smallest count difference, then of the earlier reference count,
then of the lower slot, counted as late unless that entry is EXPECTED. One that matches none makes an EXPECTED entry in the
lowest FREE slot, with E = latch + dist, H and the report's geometry: at a scanning station with the expiry E + H + length +
2R, at a blind one with the next tag and the decision point Q = E + O − pre margin − 512, while the count read, now or ahead
of an encoder edge (log 29), has not reached it; where it has, the entry is decided at once, by the readings of then and
with its lanes widened by the peer widen option (EntryDecided, in Safety, says what each outcome makes of it). With no slot
FREE it is dropped, counted TABLE-FULL (R50, R53, R57, R59, R60, R61, R78, R80 to R88). -/
def Obligations.ReceiveRecordPlaced : Prop :=
  ∀ (l : Lapse) (r : ReceiveRecord) (x : Option Reading) (rd : Reading) (s e g : State), e = s.elapse l →
    e.rst.asserted = false → e.takeRequest .received (TableRequest.isOf .received) = some (⟨.received r, x⟩, g) →
    rd = x.getD
      { mode := g.station.mode, count := g.belt.count, belt := g.belt.state, lead := lead g.belt.t64 g.opts.d
        room := decide (g.outlets.openQ.length < 32) } →
    (let dist := diff (BitVec.ofNat 24 g.opts.s) r.linepos;
      let h := min 1023 (g.opts.hb + g.opts.hd * (max 0 (min dist 65535)).toNat / 1000);
      let at24 := shift r.latch dist;
      let report : PeerReport :=
        { station := r.station, s := r.s, tag := r.tag, cls := r.cls, verdict := r.verdict, area := r.area, flags := r.flags
          lead := at24, length := r.length, first := r.first, last := r.last, centroid := r.centroid };
      let reference := fun en : Entry => if en.own.isSome then some en.lead else en.expectation.map Expectation.e;
      let meets := fun (en : Entry) (ref : Count) => reference en = some ref ∧ (diff at24 ref).natAbs ≤ h ∧
        r.first ≤ en.last + g.opts.peerWiden ∧ en.first ≤ r.last + g.opts.peerWiden;
      let nearer := fun (a b : Count) (before : Prop) =>
        (diff at24 a).natAbs < (diff at24 b).natAbs ∨
          ((diff at24 a).natAbs = (diff at24 b).natAbs ∧ (0 < diff b a ∨ (a = b ∧ before)));
      let fresh := fun (tag : Option Tag) (deadline : Count) => (
        { state := .expected, tag := tag, lead := at24, trail := shift at24 ((r.length : Int) - 1), first := r.first
          last := r.last, centroid := r.centroid, area := r.area, own := none, reports := [report], escapeSource := none
          expectation := some { e := at24, h := h, perhaps := decide (r.verdict = .trimmed) }
          deadline := some deadline, decision := none, geomFlags := r.flags } : Entry);
      (dist < -(h : Int) → exec (.receiveRecord l) s = .next (handOn e (g.bump .passedBy))) ∧
      (-(h : Int) ≤ dist → (r.verdict = .passed ∨ r.verdict = .denied ∨ r.verdict = .late ∨ r.verdict = .trimmed) →
        (∀ (j : Fin 128) (en : Entry) (ref : Count), g.table.slots[j] = some en → meets en ref →
          (∀ (k : Fin 128) (other : Entry) (ref' : Count), k ≠ j → g.table.slots[k] = some other → meets other ref' →
            nearer ref ref' (j < k)) →
          (let joined := { g with
              table := { g.table with slots := g.table.slots.set j (some { en with reports := joinReport en.reports report }) } };
            exec (.receiveRecord l) s =
              .next (handOn e (if en.state = .expected then joined else State.bump joined .lateReport)))) ∧
        ((∀ (j : Fin 128) (en : Entry) (ref : Count), g.table.slots[j] = some en → ¬meets en ref) →
          ((∀ j : Fin 128, g.table.slots[j].isSome = true) →
            exec (.receiveRecord l) s = .next (handOn e (g.bump .tableFull))) ∧
          ∀ i : Fin 128, g.table.slots[i] = none → (∀ j : Fin 128, j < i → g.table.slots[j].isSome = true) →
            (g.opts.scan = true →
              exec (.receiveRecord l) s = .next (handOn e { g with
                table := { g.table with
                  slots := g.table.slots.set i
                    (some (fresh none (shift at24 ((h + r.length + 2 * g.opts.r : Nat) : Int)))) } })) ∧
            (let point := shift at24 ((g.opts.o : Int) - (g.opts.pre : Int) - 512);
              (g.opts.scan = false → reaches rd.count point = false →
              exec (.receiveRecord l) s = .next (handOn e { g with
                former := { g.former with tag := g.former.tag + 1 }
                table := { g.table with slots := g.table.slots.set i (some (fresh (some g.former.tag) point)) } })) ∧
              (g.opts.scan = false → reaches rd.count point = true →
                EntryDecided { g with former := { g.former with tag := g.former.tag + 1 } } rd i
                  (fresh (some g.former.tag) point) r.cls r.flags g.opts.peerWiden
                  fun t => exec (.receiveRecord l) s = .next (handOn e t))))))

/-- A fourth report in an entry's list displaces the one whose sender has the smallest S, of equals the one held longest; a
list of fewer takes it at its end (R50). The chosen report is the one of the nearest upstream sender: the largest S, and between
equal S the one joined later (R79). The effective class is FERROUS when any source says so, the local class when it is not
UNKNOWN, and otherwise the chosen report's, or UNKNOWN without one (R78). -/
def Obligations.ReportsFuse : Prop :=
  (∀ (rs : List PeerReport) (r : PeerReport),
    (rs.length < 3 → joinReport rs r = rs ++ [r]) ∧
    (rs.length = 3 → ∃ before x after, rs ++ [r] = before ++ x :: after ∧ joinReport rs r = before ++ after ∧
      (∀ y ∈ before, x.s < y.s) ∧ ∀ y ∈ after, x.s ≤ y.s)) ∧
  (∀ (rs : List PeerReport) (r : PeerReport),
    chosenReport rs = some r ↔
      ∃ before after, rs = before ++ r :: after ∧ (∀ x ∈ before, x.s ≤ r.s) ∧ ∀ x ∈ after, x.s < r.s) ∧
  ∀ en : Entry,
    (let ferrous := en.own.map LocalPart.cls = some .ferrous ∨ ∃ r ∈ en.reports, r.cls = .ferrous;
      (ferrous → en.effective = .ferrous) ∧
      (¬ferrous → ∀ o, en.own = some o → o.cls ≠ .unknown → en.effective = o.cls) ∧
      (¬ferrous → (∀ o, en.own = some o → o.cls = .unknown) →
        (∀ r, chosenReport en.reports = some r → en.effective = r.cls) ∧
        (en.reports = [] → en.effective = .unknown)))

/-- A report that its sender took the piece off the belt joins the escape watch list of a scanning station behind every
record of earlier or equal E; at 32 records the front one leaves for it when its E is earlier, and the report is dropped
otherwise, each counted; a blind station discards it (R58, R69). A local piece that matches the list's one record, and no
EXPECTED entry, takes it from the list, requests an ESCAPE to the record's sender and is decided with the record as its
report and escape source in the lowest FREE slot: at a LANES station a class outside the mask settles at once, REMOVED or
PASSED, and at a GATE station any piece that is no target is PASSING, the record's report and its sender staying in the
entry (R55, R68, R81, R82); several records that match and targets are LocalPieceDecided's. -/
def Obligations.EscapesAreWatched : Prop :=
  (∀ (l : Lapse) (r : ReceiveRecord) (x : Option Reading) (s e g : State), e = s.elapse l → e.rst.asserted = false →
    e.takeRequest .received (TableRequest.isOf .received) = some (⟨.received r, x⟩, g) →
    (r.verdict = .ejected ∨ r.verdict = .removed ∨ r.verdict = .carried) →
    (let dist := diff (BitVec.ofNat 24 g.opts.s) r.linepos;
      let h := min 1023 (g.opts.hb + g.opts.hd * (max 0 (min dist 65535)).toNat / 1000);
      let at24 := shift r.latch dist;
      let record : EscapeRecord :=
        { station := r.station, s := r.s, tag := r.tag, cls := r.cls, verdict := r.verdict, area := r.area, flags := r.flags
          first := r.first, last := r.last, centroid := r.centroid, e := at24, h := h, length := r.length
          expiry := shift at24 ((h + r.length + 2 * g.opts.r : Nat) : Int) };
      let watching := fun rs : List EscapeRecord =>
        ({ g with table := { g.table with escapes := placed (fun y => reaches at24 y.e) record rs } } : State);
      -(h : Int) ≤ dist →
        (g.opts.scan = false → exec (.receiveRecord l) s = .next (handOn e g)) ∧
        (g.opts.scan = true → g.table.escapes.length < 32 →
          exec (.receiveRecord l) s = .next (handOn e (watching g.table.escapes))) ∧
        ∀ front behind, g.opts.scan = true → g.table.escapes = front :: behind → 31 ≤ behind.length →
          exec (.receiveRecord l) s = .next (handOn e
            (if 0 ≤ diff front.e at24 then g.bump .escapeListOverflow
              else (watching behind).bump .escapeListOverflow)))) ∧
  ∀ (l : Lapse) (p : PieceRecord) (x : Option Reading) (r : EscapeRecord) (i : Fin 128) (s e g : State),
    e = s.elapse l → e.rst.asserted = false →
    e.takeRequest .localPiece (TableRequest.isOf .localPiece) = some (⟨.localPiece p, x⟩, g) →
    (∀ (j : Fin 128) (en : Entry), g.table.slots[j] = some en → en.state ≠ .expected) → g.table.escapes = [r] →
    (diff p.lead r.e).natAbs ≤ r.h → p.first ≤ r.last + g.opts.peerWiden → r.first ≤ p.last + g.opts.peerWiden →
    g.table.slots[i] = none → (∀ j : Fin 128, j < i → g.table.slots[j].isSome = true) →
    (let cls := if p.cls = .ferrous ∨ r.cls = .ferrous then PieceClass.ferrous
        else if p.cls = .unknown then r.cls else p.cls;
      let masked := ClassMask.has
        (if (x.map Reading.mode).getD g.station.mode = .assisted then g.opts.eject else g.opts.fallback) cls;
      let left := State.requestEscape { g with table := { g.table with escapes := [] } }
        { target := r.station, tag := r.tag, cls := p.cls };
      (g.opts.kind = .lanes → masked = false →
        (let verdict := if ClassMask.has g.opts.passive cls then Verdict.removed else .passed;
          exec (.localPiece l) s = .next (handOn e ((left.bump (.verdict verdict cls)).requestPiece
            { tag := p.tag, flags := p.flags, lead := p.lead, length := (p.trail - p.lead).toNat + 1, first := p.first
              last := p.last, centroid := p.centroid, area := p.n, cls := cls, verdict := verdict })))) ∧
      (g.opts.kind = .gate → masked = false ∨ p.n < g.opts.areaMin ∨ g.opts.areaMax < p.n →
        exec (.localPiece l) s = .next (handOn e { left with
          table := { left.table with
            slots := left.table.slots.set i (some
              { state := .passing, tag := some p.tag, lead := p.lead, trail := p.trail, first := p.first, last := p.last
                centroid := p.centroid, area := p.n
                own := some { cls := p.cls, sumI := p.sumI, sumQ := p.sumQ, nc := p.nc, flags := p.flags }
                reports := [{ station := r.station, s := r.s, tag := r.tag, cls := r.cls, verdict := r.verdict, area := r.area
                              flags := r.flags, lead := r.e, length := r.length, first := r.first, last := r.last
                              centroid := r.centroid }]
                escapeSource := some (r.station, r.tag), expectation := none
                deadline := some (shift p.trail (g.opts.o : Int))
                decision := some
                  { cls := cls, target := false, points := none, granted := 0
                    flags := { lateOpen := false, longCut := false, lanesTrimmed := false, cut := false } }
                geomFlags := p.flags }) } })))

/-- At a scanning station, an EXPECTED entry whose deadline is the earliest is freed without a verdict by the deadline
request the table has taken: MAYBE-UNSEEN is counted when its MAYBE flag is set and EXPECTED-UNSEEN otherwise, and no
verdict counter and no notice follows (R62, R63). -/
def Obligations.UnseenEntryExpires : Prop :=
  ∀ (l : Lapse) (x : Option Reading) (d : Count) (i : Fin 128) (en : Entry) (v : Expectation) (s e g : State),
    e = s.elapse l → e.rst.asserted = false →
    e.takeRequest .deadline (TableRequest.isOf .deadline) = some (⟨.deadline, x⟩, g) → g.opts.scan = true →
    g.earliest = some (d, .entry i) → g.table.slots[i] = some en → en.state = .expected → en.expectation = some v →
    exec (.deadlineRequest l) s = .next (handOn e (State.bump { g with
      table := { g.table with slots := g.table.slots.set i none } }
      (if v.perhaps then .maybeUnseen else .expectedUnseen)))

/-- The deadline order: the earliest of the deadlines of EXPECTED and PASSING entries and of escape records; between equal
ones entries in slot order, then records in list order; the deadline request stands while the count reaches it (R62). The
deadlines other than UnseenEntryExpires' are served so. A deadline request whose deadline the count has not reached when the
table would take it lapses; one that the table has taken serves the earliest deadline, whatever the count has become (R62).
An escape record leaves the list at its expiry without effect (R70). A PASSING entry settles CARRIED when the span from lead
+ O to trail + O meets the current divert interval or one of the history, and otherwise REMOVED or PASSED by the passive
mask (R65, R113, R122). At a blind station an EXPECTED entry takes the geometry of its chosen report and is decided, by the
readings of then or those made ahead of an encoder edge (log 29), with its lanes widened by the peer widen option;
EntryDecided in Safety writes out every outcome: settled, PASSING, DENIED, LATE or DUE, LATE-OPEN or not (R64, R78, R80 to
R88, R91). -/
def Obligations.DeadlinesServed : Prop :=
  (∀ (s : State) (d : Count) (o : DeadlineOwner),
    (let held := fun (d : Count) (o : DeadlineOwner) => match o with
        | .entry i => ∃ en, s.table.slots[i] = some en ∧ (en.state = .expected ∨ en.state = .passing) ∧ en.deadline = some d
        | .escape k => ∃ r, s.table.escapes[k]? = some r ∧ r.expiry = d;
      let ahead := fun a b : DeadlineOwner => match a, b with
        | .entry i, .entry j => i < j
        | .entry _, .escape _ => True
        | .escape _, .entry _ => False
        | .escape j, .escape k => j < k;
      (held d o → (∀ d' o', o' ≠ o → held d' o' → 0 < diff d' d ∨ (d' = d ∧ ahead o o')) →
        s.earliest = some (d, o) ∧ s.deadlineStands = reaches s.belt.count d) ∧
      ((∀ d' o', ¬held d' o') → s.earliest = none ∧ s.deadlineStands = false))) ∧
  (∀ (l : Lapse) (s e : State), e = s.elapse l → e.rst.asserted = false → e.table.inFlight = none →
    e.deadlineStands = false → exec (.deadlineRequest l) s = .next (handOn e e)) ∧
  ∀ (l : Lapse) (x : Option Reading) (rd : Reading) (d : Count) (o : DeadlineOwner) (s e g : State), e = s.elapse l →
    e.rst.asserted = false → e.takeRequest .deadline (TableRequest.isOf .deadline) = some (⟨.deadline, x⟩, g) →
    rd = x.getD
      { mode := g.station.mode, count := g.belt.count, belt := g.belt.state, lead := lead g.belt.t64 g.opts.d
        room := decide (g.outlets.openQ.length < 32) } →
    g.earliest = some (d, o) →
    (∀ k, o = .escape k →
      exec (.deadlineRequest l) s = .next (handOn e { g with
        table := { g.table with escapes := g.table.escapes.take k ++ g.table.escapes.drop (k + 1) } })) ∧
    ∀ (i : Fin 128) (en : Entry), o = .entry i → g.table.slots[i] = some en →
      (∀ c, en.state = .passing → en.decision = some c →
        (let a := shift en.lead (g.opts.o : Int);
          let z := shift en.trail (g.opts.o : Int);
          let meets := (g.gate.current.any fun b => reaches z b) ||
            g.gate.history.any fun iv => reaches iv.last a && reaches z iv.first;
          let verdict := if meets then .carried
            else if ClassMask.has g.opts.passive c.cls then Verdict.removed else .passed;
          let freed : State := { g with table := { g.table with slots := g.table.slots.set i none } };
          exec (.deadlineRequest l) s = .next (handOn e ((freed.bump (.verdict verdict c.cls)).requestPiece
            { tag := en.tag.getD 0
              flags := match en.own with
                | some o => o.flags
                | none => en.geomFlags
              lead := en.lead, length := (en.trail - en.lead).toNat + 1, first := en.first, last := en.last
              centroid := en.centroid, area := en.area, cls := c.cls, verdict := verdict })))) ∧
      ∀ r, en.state = .expected → g.opts.scan = false → en.own = none → chosenReport en.reports = some r →
        EntryDecided g rd i
          { en with
            lead := r.lead, trail := shift r.lead ((r.length : Int) - 1), first := r.first, last := r.last
            centroid := r.centroid, area := r.area, geomFlags := r.flags }
          (if ∃ y ∈ en.reports, y.cls = .ferrous then PieceClass.ferrous else r.cls) r.flags g.opts.peerWiden
          fun t => exec (.deadlineRequest l) s = .next (handOn e t)

/-- A free table may take a claimant's request when one waits and none of an earlier claimant does: reports, local pieces,
receive records, the deadline request; unless it became pending together with the earlier one (R51; the tie is the model's
mark, log 5). A request that it takes has left its queue; a request in flight ends its flight. What an encoder edge's operand
names stays in flight across the edge with the readings of the moment, its record gone from its queue (R75, R86; the operand is
the model's, log 29). -/
def Obligations.ArbiterOrder : Prop :=
  ∀ s : State,
    ((s.mayTake .report = true ↔ s.table.inFlight = none ∧ s.table.reports ≠ []) ∧
      (s.mayTake .localPiece = true ↔ s.table.inFlight = none ∧ s.former.queue ≠ [] ∧
        (s.table.reports = [] ∨ s.table.tied.localPiece = true)) ∧
      (s.mayTake .received = true ↔ s.table.inFlight = none ∧ s.rxQueue ≠ [] ∧
        ((s.table.reports = [] ∧ s.former.queue = []) ∨ s.table.tied.received = true)) ∧
      (s.mayTake .deadline = true ↔ s.table.inFlight = none ∧ s.deadlineStands = true ∧
        ((s.table.reports = [] ∧ s.former.queue = [] ∧ s.rxQueue = []) ∨ s.table.tied.deadline = true))) ∧
    (let reading : Reading :=
        { mode := s.station.mode, count := s.belt.count, belt := s.belt.state, lead := lead s.belt.t64 s.opts.d
          room := decide (s.outlets.openQ.length < 32) };
      let free : Table := { s.table with tied := .none };
      (∀ p rest, s.mayTake .localPiece = true → s.former.queue = p :: rest →
        s.takeRequest .localPiece (TableRequest.isOf .localPiece) =
          some (⟨.localPiece p, none⟩, { s with former := { s.former with queue := rest }, table := free }) ∧
        s.readAhead (some .localPiece) = { s with
          former := { s.former with queue := rest }, table := { free with inFlight := some ⟨.localPiece p, some reading⟩ } }) ∧
      (∀ r rest, s.mayTake .received = true → s.rxQueue = r :: rest →
        s.takeRequest .received (TableRequest.isOf .received) =
          some (⟨.received r, none⟩, { s with rxQueue := rest, table := free }) ∧
        s.readAhead (some .received) = { s with
          rxQueue := rest, table := { free with inFlight := some ⟨.received r, some reading⟩ } }) ∧
      (∀ r rest, s.mayTake .report = true → s.table.reports = r :: rest → ∀ test : TableRequest → Bool,
        test (.report r) = true →
        s.takeRequest .report test = some (⟨.report r, none⟩, { s with table := { free with reports := rest } }) ∧
        s.readAhead (some .report) = { s with
          table := { free with reports := rest, inFlight := some ⟨.report r, some reading⟩ } }) ∧
      (s.mayTake .deadline = true →
        s.takeRequest .deadline (TableRequest.isOf .deadline) = some (⟨.deadline, none⟩, { s with table := free }) ∧
        s.readAhead (some .deadline) = { s with table := { free with inFlight := some ⟨.deadline, some reading⟩ } }) ∧
      (∀ f, s.table.inFlight = some f → ∀ c,
        s.takeRequest c (TableRequest.isOf c) =
          (if f.request.claimant = c then some (f, { s with table := { s.table with inFlight := none } }) else none) ∧
        s.readAhead (some c) =
          (if f.request.claimant = c ∧ f.reading = none then
            { s with table := { s.table with inFlight := some ⟨f.request, some reading⟩ } } else s)) ∧
      (∀ c, s.table.inFlight = none → s.mayTake c = false →
        s.takeRequest c (TableRequest.isOf c) = none ∧ s.readAhead (some c) = s) ∧
      s.readAhead none = s)

/-! ### Outlets and gate -/

/-- A lane OPEN for T_on_max trips: it cools until now plus T_on_max, every window whose grant holds it loses it and is
LANES-TRIMMED, its test lane ends, MAX-ON-TRIP is counted. A COOLING lane whose cool-until time the time base has reached is
CLOSED; reached is read on the wrapping time base as less than 2^31 µs past (log 16), and the times of a lane that is no longer
OPEN or COOLING are dropped (log 26). A test lane ends after 50 ms and its only holder's lane is CLOSED (R103, R104, R107).
TEST LANE opens a CLOSED lane of a PAUSED LANES station with room in the budget, with the test lane as its holder, and answers
OK; a lane above 31 is REFUSED-ARG, and any other case REFUSED-STATE, with no effect on the outlets (R106). -/
def Obligations.LaneTimersAndTests : Prop :=
  (∀ (l : Lapse) (n : Fin 32) (s e : State), e = s.elapse l → e.rst.asserted = false →
    (∀ since, e.outlets.lanes[n].state = .opened → e.outlets.lanes[n].openedAt = some since →
      1000 * e.opts.tOnMax ≤ (e.timeBase - since).toNat →
      exec (.maxOnTrip l n) s = .next (handOn e (State.bump { e with
        outlets := { e.outlets with
          closeQ := e.outlets.closeQ.map fun w => if w.grant.getLsbD n.val then
              { w with grant := w.grant &&& ~~~(BitVec.twoPow 32 n.val), flags := { w.flags with lanesTrimmed := true } }
            else w
          lanes := e.outlets.lanes.set n
            { state := .cooling, holders := 0, openedAt := none, test := none
              coolUntil := some (e.timeBase + BitVec.ofNat 32 (1000 * e.opts.tOnMax)) } } } .maxOnTrip))) ∧
    (∀ till, e.outlets.lanes[n].state = .cooling → e.outlets.lanes[n].coolUntil = some till →
      (e.timeBase - till).toNat < 2 ^ 31 →
      exec (.coolingEnd l n) s = .next (handOn e { e with
        outlets := { e.outlets with
          lanes := e.outlets.lanes.set n
            { state := .closed, holders := 0, openedAt := none, coolUntil := none, test := none } } })) ∧
    (∀ t, e.outlets.lanes[n].test = some t → 50000 ≤ t → e.outlets.lanes[n].holders = 1 →
      exec (.testLaneEnd l n) s = .next (handOn e { e with
        outlets := { e.outlets with
          lanes := e.outlets.lanes.set n
            { e.outlets.lanes[n] with state := .closed, holders := 0, openedAt := none, test := none } } }))) ∧
  ∀ (t : Transaction) (c : Byte) (rest : List Byte) (s e : State), e = s.elapse t.lapse → e.rst.asserted = false →
    t.selected ≤ e.rst.sinceEnd → e.store.writing = none → t.args = c :: rest →
    (32 ≤ c.toNat → exec (.testLane t) s = .next (handOn e (e.discardResponse.answer .refusedArg []))) ∧
    ∀ n : Fin 32, n.val = c.toNat →
      (e.opts.kind = .lanes ∧ e.station.state = .paused ∧ e.outlets.lanes[n].state = .closed ∧
          e.outlets.openCount < e.budget →
        exec (.testLane t) s = .next (handOn e (State.answer { e.discardResponse with
          outlets := { e.outlets with
            lanes := e.outlets.lanes.set n
              { e.outlets.lanes[n] with state := .opened, holders := 1, openedAt := some e.timeBase, test := some 0 } } }
          .ok []))) ∧
      (e.opts.kind ≠ .lanes ∨ e.station.state ≠ .paused ∨ e.outlets.lanes[n].state ≠ .closed ∨
          e.budget ≤ e.outlets.openCount →
        exec (.testLane t) s = .next (handOn e (e.discardResponse.answer .refusedState [])))

/-- A grant takes lanes of the span alone, outward from the centroid and the higher first at each distance: an OPEN lane
takes a holder more, a CLOSED lane opens while the room in the budget lasts, and a lane neither OPEN nor opened is skipped
(R99, R100). The open event of a lane window: at 32 windows in the close queue it is DENIED, cause QUEUE, with no lane
granted DENIED, cause BUDGET, and otherwise it joins the close queue by its close point with its grant, LANES-TRIMMED when a
lane was skipped, and is reported OPENED (R99, R101). Its close event takes a holder from each lane of its grant, CLOSED
when none is left (its opened-at time dropped, the model's choice, log 26), and settles it TRIMMED when a flag is set and
EJECTED otherwise (R102). -/
def Obligations.LaneWindowEvents : Prop :=
  (∀ (now : TimeBase) (avail : Nat) (sp : Span) (o : Outlets), sp.centroid < 32 →
    (let g := grantLanes now avail sp o.lanes;
      let inSpan := fun n : Fin 32 => sp.first ≤ n.val ∧ n.val ≤ sp.last;
      let far := fun n : Fin 32 => ((n.val : Int) - (sp.centroid : Int)).natAbs;
      Outlets.openCount { o with lanes := g.lanes } + g.avail = o.openCount + avail ∧
      (∀ n : Fin 32, g.granted.getLsbD n.val = true ↔ inSpan n ∧ g.lanes[n].state = .opened) ∧
      (g.skipped = true ↔ ∃ n : Fin 32, inSpan n ∧ g.granted.getLsbD n.val = false) ∧
      (∀ n : Fin 32, g.lanes[n] =
        if g.granted.getLsbD n.val = false then o.lanes[n]
        else if o.lanes[n].state = .opened then { o.lanes[n] with holders := o.lanes[n].holders + 1 }
        else { o.lanes[n] with state := .opened, holders := 1, openedAt := some now }) ∧
      (∀ n m : Fin 32, inSpan n → o.lanes[n].state = .closed → g.granted.getLsbD n.val = false →
        g.avail = 0 ∧ (g.granted.getLsbD m.val = true → o.lanes[m].state = .closed →
          far m < far n ∨ (far m = far n ∧ n < m))))) ∧
  ∀ (s : State) (L : Nat) (w : Window) (sp : Span), s.opts.kind = .lanes → w.span = some sp →
    (let budget := match s.scan.band with
        | .fault => 0
        | .low => s.opts.bLow
        | .normal => s.opts.bNormal;
      let g := grantLanes s.timeBase (budget - s.outlets.openCount) sp s.outlets.lanes;
      let denied := fun c : DenialCause => ({ s with
        table := { s.table with reports := s.table.reports ++ [.settled w.slot .denied (some c) w.flags] } } : State);
      let flags := { w.flags with lanesTrimmed := w.flags.lanesTrimmed || g.skipped };
      (32 ≤ s.outlets.closeQ.length → s.openEvent L w = denied .queue) ∧
      (s.outlets.closeQ.length < 32 → g.granted = 0 → s.openEvent L w = denied .budget) ∧
      (s.outlets.closeQ.length < 32 → g.granted ≠ 0 → s.openEvent L w = { s with
        outlets := { s.outlets with
          lanes := g.lanes
          closeQ := placed (fun y => reaches w.pClose y.pClose) { w with grant := g.granted, flags := flags }
            s.outlets.closeQ }
        table := { s.table with reports := s.table.reports ++ [.opened w.slot g.granted flags] } }) ∧
      ∃ t, s.closeEvent L w = t ∧
        (∀ n : Fin 32, t.outlets.lanes[n] =
          if w.grant.getLsbD n.val = false then s.outlets.lanes[n]
          else if 1 < s.outlets.lanes[n].holders then
            { s.outlets.lanes[n] with holders := s.outlets.lanes[n].holders - 1 }
          else { s.outlets.lanes[n] with state := .closed, holders := 0, openedAt := none }) ∧
        t = { s with
          outlets := { s.outlets with lanes := t.outlets.lanes }
          table := { s.table with reports := s.table.reports ++ [.settled w.slot
            (if w.flags.lateOpen ∨ w.flags.longCut ∨ w.flags.lanesTrimmed ∨ w.flags.cut then .trimmed else .ejected)
            none w.flags] } })

/-- The gate. The open event of a gate window: at 32 windows in the close queue it is DENIED, cause QUEUE; otherwise the holder
count rises, the window joins the close queue and is reported OPENED, and a gate in REST or MOVING-BACK is commanded out, its
interval beginning at count + L: MOVING-OUT, or DIVERT at once with SW_DIV closed and SW_REST open (R112, R113, R114). The close
event settles it EJECTED in DIVERT without LATE-OPEN or LONG-CUT and TRIMMED otherwise; with no holder left, the gate is held,
counted HOLD-THROUGH, while the count reaches the front open point less 2L, and otherwise released: MOVING-BACK, or REST at once
with SW_REST closed and SW_DIV open, the interval ending at count + L (R113, R117). At a step a gate held out without a holder is
released when that test fails (R118). -/
def Obligations.GateWindowEvents : Prop :=
  ∀ (s : State) (L : Nat) (w : Window), s.opts.kind = .gate →
    (let out := decide (s.gate.state = .movingOut ∨ s.gate.state = .divert);
      let there := decide (s.gate.swRest = true ∧ s.gate.swDiv = false);
      let back := decide (s.gate.swRest = false ∧ s.gate.swDiv = true);
      let held := match s.outlets.openQ with
        | front :: _ => reaches s.belt.count (shift front.pOpen (-(2 * (L : Int))))
        | [] => false;
      let reported := fun r : OutletReport => { s.table with reports := s.table.reports ++ [r] };
      let released := { s.gate with
        state := if back then .rest else .movingBack
        travel := if back then none else some 0
        current := none
        history := match s.gate.current with
          | some b => (if 4 ≤ s.gate.history.length then s.gate.history.drop 1 else s.gate.history) ++
              [⟨b, shift s.belt.count (L : Int)⟩]
          | none => s.gate.history };
      (32 ≤ s.outlets.closeQ.length →
        s.openEvent L w = { s with table := reported (.settled w.slot .denied (some .queue) w.flags) }) ∧
      (s.outlets.closeQ.length < 32 → s.openEvent L w = { s with
        gate := if s.gate.state = .rest ∨ s.gate.state = .movingBack then
            { s.gate with
              holders := s.gate.holders + 1
              state := if there then .divert else .movingOut
              travel := if there then none else some 0
              current := some (s.gate.current.getD (shift s.belt.count (L : Int))) }
          else { s.gate with holders := s.gate.holders + 1 }
        outlets := { s.outlets with closeQ := placed (fun y => reaches w.pClose y.pClose) w s.outlets.closeQ }
        table := reported (.opened w.slot 0 w.flags) }) ∧
      (let verdict := if s.gate.state = .divert ∧ w.flags.lateOpen = false ∧ w.flags.longCut = false then Verdict.ejected
          else .trimmed;
        let closed := { s with
          gate := { s.gate with holders := s.gate.holders - 1 }
          table := reported (.settled w.slot verdict none w.flags) };
        (1 < s.gate.holders ∨ out = false → s.closeEvent L w = closed) ∧
        (s.gate.holders ≤ 1 → out = true → held = true → s.closeEvent L w = closed.bump .holdThrough) ∧
        (s.gate.holders ≤ 1 → out = true → held = false →
          s.closeEvent L w = { closed with gate := { released with holders := 0 } })) ∧
      (out = true → s.gate.holders = 0 → held = false → s.holdStep L = { s with gate := released }) ∧
      (out = false ∨ 0 < s.gate.holders ∨ held = true → s.holdStep L = s))

/-- The outlets at a forward step. Intervals of the divert history leave 8,192 counts after their end (R113). On a belt that is
not MOVING nothing else happens. With L the lead of the step: where outlets are not blocked, the due windows at the front of the
open queue take their open events, in order, then the due windows at the front of the close queue, but for those that joined it
at this step, their close events, then the gate's hold is tested (R94, R118). The step that makes the belt MOVING resolves the
due windows of the open queue: DENIED, cause UNSETTLED, with the close point due, and otherwise opened with LATE-OPEN, or DENIED,
cause BLOCKED, where outlets are blocked; no window closes (R98). While they are blocked each due window is DENIED, cause
BLOCKED, and nothing else happens (R97). The intervals' leaving first is log 24's reading. -/
def Obligations.OutletStepInOrder : Prop :=
  ∀ (s : State) (L : Nat), L = lead s.belt.t64 s.opts.d →
    (let g : State := { s with gate := { s.gate with
        history := s.gate.history.filter fun iv => !reaches s.belt.count (shift iv.last 8192) } };
      let isDue := fun point : Count => reaches s.belt.count (shift point (-(L : Int)));
      let front := s.outlets.openQ.takeWhile fun w => isDue w.pOpen;
      let ahead := { g with outlets := { g.outlets with openQ := s.outlets.openQ.dropWhile fun w => isDue w.pOpen } };
      let settle := fun (c : DenialCause) (t : State) (w : Window) =>
        ({ t with table := { t.table with reports := t.table.reports ++ [.settled w.slot .denied (some c) w.flags] } } : State);
      (s.belt.state ≠ .moving → ∀ became, s.outletStep became = g) ∧
      (s.belt.state = .moving → s.blocked = false →
        (∀ u v : State, u = front.foldl (fun t w => t.openEvent L w) ahead →
          (let near := u.outlets.closeQ.takeWhile fun w => isDue w.pClose;
            let behind := u.outlets.closeQ.dropWhile fun w => isDue w.pClose;
            let held := fun w : Window => s.outlets.closeQ.any fun x => decide (x.slot = w.slot);
            v = (near.filter held).foldl (fun t w => t.closeEvent L w)
              { u with outlets := { u.outlets with closeQ := (near.filter fun w => !held w) ++ behind } }) →
          s.outletStep false = v.holdStep L) ∧
        s.outletStep true = State.holdStep (front.foldl (fun t w =>
          if isDue w.pClose then settle .unsettled t w
          else t.openEvent L { w with flags := { w.flags with lateOpen := true } }) ahead) L) ∧
      (s.belt.state = .moving → s.blocked = true →
        s.outletStep false = front.foldl (settle .blocked) ahead ∧
        s.outletStep true = front.foldl (fun t w => settle (if isDue w.pClose then .unsettled else .blocked) t w) ahead))

/-- A forward step on a MOVING belt taken while outlets are blocked settles each window at the front of the open queue whose open
point, less the lead of the step's own T64, the new count reaches: DENIED, cause BLOCKED, in the queue's order. The rest of the
queue, the close queue and the lanes stay, and the gate but for its history (R94, R95, R97). -/
def Obligations.BlockedStepDenies : Prop :=
  ∀ (l : Lapse) (a b : Bool) (between : Option Claimant) (s e g : State), e = s.elapse l → e.rst.asserted = false →
    g = e.readAhead between →
    ((e.belt.encA, e.belt.encB), (a, b)) ∈ forwardPairs → e.opts.p ≤ e.belt.sub + 1 → e.belt.state = .moving →
    (e.station.state ≠ .running ∨ e.scan.band = .fault ∨ (e.opts.kind = .gate ∧ e.gate.state = .fault)) →
    ∃ t, exec (.encoderEdge ⟨l, between⟩ a b) s = .next t ∧ t.belt.state = .moving ∧ t.belt.count = e.belt.count + 1 ∧
      (let isDue := fun w : Window =>
          reaches (e.belt.count + 1) (shift w.pOpen (-((lead t.belt.t64 e.opts.d : Nat) : Int)));
        t.outlets = { e.outlets with openQ := e.outlets.openQ.dropWhile isDue } ∧
        t.table.reports = g.table.reports ++
          (e.outlets.openQ.takeWhile isDue).map (fun w => .settled w.slot .denied (some .blocked) w.flags)) ∧
      t.gate = { e.gate with
        history := e.gate.history.filter fun iv => !reaches (e.belt.count + 1) (shift iv.last 8192) } ∧
      t.table.slots = e.table.slots

/-- A changed level of a feedback switch of a GATE station: both closed is a fault, or one more fault count in FAULT; otherwise
AT-DIVERT ends MOVING-OUT, AT-REST ends MOVING-BACK and FAULT, and anything else changes no state. The travel timer at
max(20,000, 2D) is a fault. A fault releases the command, ends an open interval at count plus lead and is counted (R112, R113,
R115, R116, R120, R121). -/
def Obligations.GateEventsAct : Prop :=
  ∀ (l : Lapse) (s e : State), e = s.elapse l → e.rst.asserted = false →
    (let fault := fun g : Gate => State.bump { e with
        gate := { g with
          state := .fault
          travel := none
          current := none
          history := match g.current with
            | some b => (if 4 ≤ g.history.length then g.history.drop 1 else g.history) ++
                [⟨b, shift e.belt.count (lead e.belt.t64 e.opts.d)⟩]
            | none => g.history } } .gateFault;
      (∀ (sw : GateSwitch) (high : Bool) (g : Gate), e.opts.kind = .gate →
        (match sw with
          | .rest => e.gate.swRest
          | .div => e.gate.swDiv) ≠ high →
        g = (match sw with
          | .rest => { e.gate with swRest := high }
          | .div => { e.gate with swDiv := high }) →
        exec (.switchEvent l sw high) s = .next (handOn e (
          if g.swRest = false ∧ g.swDiv = false then
            if g.state = .fault then State.bump { e with gate := g } .gateFault else fault g
          else if g.state = .movingOut ∧ g.swDiv = false then { e with gate := { g with state := .divert, travel := none } }
          else if g.state = .movingBack ∧ g.swRest = false then { e with gate := { g with state := .rest, travel := none } }
          else if g.state = .fault ∧ g.swRest = false then { e with gate := { g with state := .rest } }
          else { e with gate := g }))) ∧
      ∀ n, e.gate.travel = some n → (e.gate.state = .movingOut ∨ e.gate.state = .movingBack) →
        max 20000 (2 * e.opts.d) ≤ n → exec (.travelTimeout l) s = .next (handOn e (fault e.gate)))

/-! ### Line link -/

/-- A link in IDLE on a free bus, permitted to transmit, makes its attempt. The stale PIECEs at the head of its queue leave it
first, each counted TX-STALE, and a pending HELLO takes a freed place by its ARB; then the attempt begins with the head notice
that is left: ARBITRATING, with the ARB, KIND/LEN and payload of the notice; with none left, none begins. In any other state of
the link, with the bus not free, the station not RUNNING or PAUSED, the mute flag set or the queue empty, BUS_FREE begins
nothing (R131, R132, R141, R142, R150). That the HELLO joins when the last stale PIECE has left is the same as after the first:
it stands behind every PIECE. -/
def Obligations.AttemptBegins : Prop :=
  (∀ (l : Lapse) (stale left q : List Notice) (w : Option HelloFields) (s e d : State), e = s.elapse l →
    e.rst.asserted = false → e.link.state = .idle → 192 ≤ e.link.idle →
    (e.station.state = .running ∨ e.station.state = .paused) → e.station.mute = false → e.link.queue ≠ [] →
    e.link.queue = stale ++ left →
    (∀ n ∈ stale, ∃ p, n.body = .piece p ∧
      ∀ f ∈ e.listeners, (f.s : Int) ≤ (e.opts.s : Int) + diff e.belt.count p.lead) →
    (∀ n p, left.head? = some n → n.body = .piece p →
      ∃ f ∈ e.listeners, (e.opts.s : Int) + diff e.belt.count p.lead < (f.s : Int)) →
    (stale = [] ∨ e.link.waiting = none → q = left ∧ w = e.link.waiting) →
    (∀ h, stale ≠ [] → e.link.waiting = some h →
      left.length < 16 ∧ q = queueWith (helloNotice e.station.number h) left ∧ w = none) →
    d = State.bumps .txStale stale.length { e with link := { e.link with queue := q, waiting := w } } →
    (q = [] → exec (.busFree l) s = .next (handOn e d)) ∧
    ∀ n rest, q = n :: rest →
      exec (.busFree l) s = .next (handOn e { d with
        link := { d.link with
          state := .arbitrating
          queue := { n with attempted := true } :: rest
          frame := some ⟨BitVec.ofNat 8 n.arb, n.body.kindLen, n.body.payload 0⟩
          arbTime := some 0
          arbRead := []
          latch := none } })) ∧
  ∀ (l : Lapse) (s e : State), e = s.elapse l →
    (e.link.state ≠ .idle ∨ e.link.idle < 192 ∨ e.station.state = .setup ∨ e.station.state = .joining ∨
      e.station.mute = true ∨ e.link.queue = []) → e.rst.asserted = false →
    exec (.busFree l) s = .next (handOn e e)

/-- A start edge seen in IDLE, dominant after recessive, begins a reception after at least 176 recessive samples when the
majority of samples 7, 8 and 9 is dominant; a glitch, or an edge that comes too early, leaves the link in IDLE. Either way the
ten samples are counted, read ahead of the lapse that holds their time (log 22): each count is the number of samples of its
level in a row (R127, R131, R139). Arbitration is lost at an ARB bit sent recessive: the link goes on to receive, keeps the ARB
bits sampled as the first bits of the received ARB byte, and its notice stays in its place, a HELLO with the content of a pending
HELLO (R133, R138, R141). At the ARB stop bit a receiver latches the belt count, and a sender, which has won and is in SENDING,
does too, the line position of a PIECE filled with S + (latch − lead) (R133, R134, R149); that it is in SENDING at this command
whatever the time is log 8's. -/
def Obligations.StartAndArbitration : Prop :=
  (∀ (l : Lapse) (samples : BitVec 10) (s e : State), e = s.elapse l → e.rst.asserted = false →
    (let row := (List.range 10).map fun i => samples.getLsbD i;
      let counted := fun (v : Bool) (old : Nat) =>
        if row.all fun x => x == v then old + 10 else (row.reverse.takeWhile fun x => x == v).length;
      let ones := bit (samples.getLsbD 7) + bit (samples.getLsbD 8) + bit (samples.getLsbD 9);
      let accepted := decide (176 ≤ e.link.idle) && decide (ones < 2);
      (e.link.state = .idle → samples.getLsbD 0 = false → 0 < e.link.idle →
        exec (.startEdge l samples) s = .next (handOn e { e with
          link := { e.link with
            state := if accepted then .receiving else .idle
            rx := if samples.getLsbD 9 then .recessive else .dominant
            idle := counted true e.link.idle
            dominant := counted false e.link.dominant
            ahead := e.link.ahead + 10
            arbRead := if accepted then [] else e.link.arbRead
            latch := if accepted then none else e.link.latch } })) ∧
      ((e.link.state ≠ .idle ∨ samples.getLsbD 0 = true ∨ e.link.idle = 0) →
        exec (.startEdge l samples) s = .next (handOn e e)))) ∧
  (∀ (l : Lapse) (s e : State), e = s.elapse l → e.rst.asserted = false →
    (∀ (k : Fin 8) (f : TxFrame), e.link.state = .arbitrating → e.link.frame = some f →
      f.arb.getLsbD (7 - k.val) = true →
      (let lost := fun (q : List Notice) (w : Option HelloFields) => Host.Outcome.next (handOn e { e with
          link := { e.link with
            state := .receiving, frame := none, arbTime := none, latch := none, queue := q, waiting := w
            arbRead := ((List.range k.val).map fun j => f.arb.getLsbD (7 - j)) ++ [false] } });
        (e.link.waiting = none ∨ (∀ n ∈ e.link.queue, n.attempted = true → n.isHello = false) →
          exec (.arbitrationLost l k) s =
            lost (e.link.queue.map fun n => { n with attempted := false }) e.link.waiting) ∧
        ∀ (h : HelloFields) (n : Notice), e.link.waiting = some h → n ∈ e.link.queue → n.attempted = true →
          n.isHello = true →
          exec (.arbitrationLost l k) s =
            lost (e.link.queue.map fun n => if n.attempted then { n with attempted := false, body := .hello h } else n)
              none)) ∧
    (e.link.latch = none → e.link.state = .receiving →
      exec (.latchCount l) s = .next (handOn e { e with link := { e.link with latch := some e.belt.count } })) ∧
    (∀ (f : TxFrame) (n : Notice) (time : Option Nat), e.link.latch = none → e.link.frame = some f →
      (e.link.state = .arbitrating ∧ time = none ∨ e.link.state = .sending ∧ time = e.link.arbTime) →
      e.link.queue.find? (fun n => n.attempted) = some n →
      exec (.latchCount l) s = .next (handOn e { e with
        link := { e.link with
          state := .sending
          arbTime := time
          latch := some e.belt.count
          frame := some (match n.body with
            | .piece p => { f with
                payload := piecePayload p (shift (BitVec.ofNat 24 e.opts.s) (diff e.belt.count p.lead)) }
            | .hello _ | .escape _ => f) } }))) ∧
  ∀ (k : Link) (b : LineByte) (rest : List LineByte),
    (k.arbRead = [] → k.reads (b :: rest) = b :: rest) ∧
    (k.arbRead ≠ [] → ∃ x, k.reads (b :: rest) = x :: rest ∧ x.edge = b.edge ∧ x.bits[0] = 0 ∧
      ∀ i : Fin 9,
        (∀ v, k.arbRead[i.val]? = some v → x.bits[i.succ] = if v then 7 else 0) ∧
        (k.arbRead.length ≤ i.val → x.bits[i.succ] = b.bits[i.succ]))

/-- A BIT error in SENDING, or in ARBITRATING at the start bit or at a data bit of ARB sent dominant (R133), begins a break,
discards the notice of the attempt and is counted; 14 bit times later the break ends in IDLE; a frame sent to its end takes
its notice from the queue. A pending HELLO takes the freed place, by its ARB (R137, R138, R140, R141). That a link is in
SENDING at a bit error from the ARB stop bit on, whatever the time, is log 8's. -/
def Obligations.AttemptsEnd : Prop :=
  ∀ (l : Lapse) (s e : State), e = s.elapse l → e.rst.asserted = false →
    (∀ (k : Nat) (f : TxFrame) (left q : List Notice), e.link.frame = some f →
      (((e.link.state = .arbitrating ∨ e.link.state = .sending) ∧ 9 ≤ k ∧ k < 10 * f.bytes.length) ∨
        (e.link.state = .arbitrating ∧ (k = 0 ∨ (1 ≤ k ∧ k ≤ 8 ∧ f.arb.getLsbD (8 - k) = false)))) →
      left = e.link.queue.filter (fun n => !n.attempted) → (e.link.waiting = none → q = left) →
      (∀ h, e.link.waiting = some h → left.length < 16 ∧ q = queueWith (helloNotice e.station.number h) left) →
      exec (.bitError l k) s = .next (handOn e (State.bump { e with
        link := { e.link with
          state := .breaking, frame := none, arbTime := none, latch := none, breakTime := some 0, queue := q, waiting := none } } .txBit))) ∧
    (∀ n, e.link.state = .breaking → e.link.breakTime = some n →
      14 * (if e.opts.rate = 2 then 1 else if e.opts.rate = 1 then 2 else 4) ≤ n →
      exec (.breakEnd l) s = .next (handOn e { e with link := { e.link with state := .idle, breakTime := none } })) ∧
    (∀ (c : Count) (left q : List Notice), e.link.state = .sending → e.link.latch = some c →
      left = e.link.queue.filter (fun n => !n.attempted) → (e.link.waiting = none → q = left) →
      (∀ h, e.link.waiting = some h → left.length < 16 ∧ q = queueWith (helloNotice e.station.number h) left) →
      exec (.transmitCompletion l) s = .next (handOn e { e with
        link := { e.link with state := .idle, frame := none, latch := none, queue := q, waiting := none } }))

/-- At the 513th dominant sample in a row the link enters LINE-FAULT, keeps its notices and counts the fault; after 2,048
recessive samples it is IDLE with its idle count at 0 (R139). A received frame that fails a test of the receiver is
discarded, its link returns to IDLE, and the counter of that error alone is increased (R135; what the link reads after a
lost arbitration is StartAndArbitration's). The tests, in their order: a false start is passed over; with no start edge of
the next byte by sample 192 of a byte that is not the last, or with none at all, GAP (an edge at sample 192 is in time, log
25); a dominant stop bit, FRAMING; at the KIND/LEN byte a kind other than 1, 2 and 3, UNKNOWN-KIND, then a length not the
kind's, LENGTH; at the last byte a check that differs from the one computed over the bytes, CRC, and otherwise the frame is
valid (R127, R128, R129, R130, R135, R136). -/
def Obligations.FaultsAndDiscards : Prop :=
  (∀ (l : Lapse) (s e : State), e = s.elapse l → e.rst.asserted = false →
    (e.link.state ≠ .lineFault → 513 ≤ e.link.dominant → (∀ n ∈ e.link.queue, n.attempted = false) →
      exec (.lineFault l) s = .next (handOn e (State.bump { e with
        link := { e.link with
          state := .lineFault, frame := none, arbTime := none, arbRead := [], latch := none, breakTime := none } }
        .lineFaults))) ∧
    (e.link.state = .lineFault → 2048 ≤ e.link.idle →
      exec (.lineFaultEnd l) s = .next (handOn e { e with link := { e.link with state := .idle, idle := 0 } })) ∧
    (e.link.dominant < 513 → exec (.lineFault l) s = .next (handOn e e)) ∧
    (e.link.idle < 2048 → exec (.lineFaultEnd l) s = .next (handOn e e))) ∧
  (∀ (l : Lapse) (rx : List LineByte) (err : RxError) (s e : State), e = s.elapse l → e.rst.asserted = false →
    e.link.state = .receiving → receive (e.link.reads rx) [] = .discarded err →
    exec (.frameDiscard l rx) s = .next (handOn e (State.bump { e with
      link := { e.link with state := .idle, arbRead := [], latch := none } }
      (match err with
        | .framing => .rxFraming
        | .gap => .rxGap
        | .unknownKind => .rxUnknownKind
        | .length => .rxLength
        | .crc => .rxCrc)))) ∧
  (∀ (before after : List LineByte) (b : LineByte) (got : List Byte),
    2 ≤ bit (b.bits[0].getLsbD 0) + bit (b.bits[0].getLsbD 1) + bit (b.bits[0].getLsbD 2) →
    receive (before ++ b :: after) got = receive (before ++ after) got) ∧
  ∀ (read after : List LineByte) (b : LineByte),
    (let sampled := fun (x : LineByte) (k : Fin 10) =>
        decide (2 ≤ bit (x.bits[k].getLsbD 0) + bit (x.bits[k].getLsbD 1) + bit (x.bits[k].getLsbD 2));
      let value := fun x : LineByte => BitVec.ofNat 8 (((List.range 8).map fun i =>
        2 ^ (7 - i) * bit (sampled x (Fin.ofNat 10 (i + 1)))).sum);
      let check := fun bs : List Byte => bs.foldl (fun (reg : BitVec 16) x => (List.range 8).foldl (fun reg i =>
        (reg <<< 1) ^^^ (if (reg.getLsbD 15) != x.getLsbD (7 - i) then 0x1021 else 0)) reg) 0xFFFF;
      let lengthOf := fun kind : Nat => if kind = 1 then some 8 else if kind = 2 then some 14
        else if kind = 3 then some 4 else none;
      let bytes := read.map value;
      let k := bytes.length;
      let kind := fun x : Byte => x.toNat / 32;
      let len := fun x : Byte => x.toNat % 32;
      (∀ x ∈ read, sampled x 0 = false ∧ sampled x 9 = true) → (∀ x ∈ read.drop 1, x.edge ≤ 192) →
      (∀ kl, bytes[1]? = some kl → lengthOf (kind kl) = some (len kl) ∧ k < len kl + 4) → sampled b 0 = false →
        (k ≠ 0 → receive read [] = .discarded .gap) ∧
        (k ≠ 0 → 192 < b.edge → receive (read ++ b :: after) [] = .discarded .gap) ∧
        (k = 0 ∨ b.edge ≤ 192 →
          (sampled b 9 = false → receive (read ++ b :: after) [] = .discarded .framing) ∧
          (sampled b 9 = true →
            (k = 1 → lengthOf (kind (value b)) = none → receive (read ++ b :: after) [] = .discarded .unknownKind) ∧
            (∀ n, k = 1 → lengthOf (kind (value b)) = some n → len (value b) ≠ n →
              receive (read ++ b :: after) [] = .discarded .length) ∧
            ∀ arb kl payload high low, bytes ++ [value b] = arb :: kl :: payload ++ [high, low] →
              payload.length = len kl →
              receive (read ++ b :: after) [] =
                if high ++ low = check (arb :: kl :: payload) then .valid arb kl payload else .discarded .crc)))

/-- What the encoder of a frame sends, a receiver on an undisturbed line reads: the frame is valid with its ARB byte and
payload, and the payload of a HELLO, of a PIECE within the content test and of an ESCAPE reads as what was put into it (R128,
R129, R130, R136, sections 9.2 and 9.6). -/
def Obligations.SentFramesAreReceived : Prop :=
  ∀ (arb : Byte) (body : Body) (linepos : Count),
    receive (cleanFrame ⟨arb, body.kindLen, body.payload linepos⟩) [] = .valid arb body.kindLen (body.payload linepos) ∧
    (∀ h, body = .hello h → h.inRange = true → helloOfPayload (body.payload linepos) = some h) ∧
    (∀ p, body = .piece p → p.inRange = true → ∀ (n : Fin 16) (sender : Nat) (latch : Count),
      recordOfPayload (body.payload linepos) n sender latch = some
        { station := n, s := sender, tag := p.tag, flags := p.flags, linepos := linepos, length := p.length
          first := p.first, last := p.last, centroid := p.centroid, area := p.area, cls := p.cls, verdict := p.verdict
          latch := latch }) ∧
    ∀ x, body = .escape x → escapeOfPayload (body.payload linepos) = some x

/-! ### Received frames, roster and station -/

/-- The mode that the roster gives is ASSISTED with the cover station none, and else exactly while the cover station's slot
is PRESENT or QUIET, its announced state RUNNING and its announced outlet state not UNAVAILABLE (R169). A HELLO of another
number that passes the content test makes its sender's slot PRESENT with a step code equal to this station's and MISMATCH
otherwise, with the HELLO's fields and the silence timer at 0; the other slots stay, and the mode is evaluated so when the
slot is the cover station's. The reception ends: the link is IDLE, but where the bus is free already and a notice waits,
whose attempt then begins at once (R132, R136, R152, R153, R167, R168, R169). -/
def Obligations.HelloFillsRoster : Prop :=
  (∀ u : State, u.modeNow = .assisted ↔ u.opts.cover = none ∨ ∃ (c : Fin 16) (f : HelloFields), u.opts.cover = some c ∧
    (u.station.roster[c].state = .present ∨ u.station.roster[c].state = .quiet) ∧ u.station.roster[c].fields = some f ∧
    f.station = .running ∧ f.outlet ≠ .unavailable) ∧
  ∀ (l : Lapse) (rx : List LineByte) (arb kl : Byte) (payload : List Byte) (latch : Count) (h : HelloFields)
    (n : Fin 16) (s e : State), e = s.elapse l → e.rst.asserted = false → e.link.state = .receiving →
    e.link.latch = some latch → receive (e.link.reads rx) [] = .valid arb kl payload → kindOf kl = 1 → n.val = arb.toNat % 16 →
    n ≠ e.station.number → e.station.roster[n].state ≠ .self → helloOfPayload payload = some h →
    ∃ t, exec (.validFrame l rx) s = .next t ∧
      t.station.roster = e.station.roster.set n
        ⟨if h.step = e.opts.stepCode then .present else .mismatch, some h, some 0⟩ ∧
      (e.opts.cover = some n → t.station.mode =
        if h.step = e.opts.stepCode ∧ h.station = .running ∧ h.outlet ≠ .unavailable then .assisted else .alone) ∧
      (e.opts.cover ≠ some n → t.station.mode = e.station.mode) ∧
      t.station.number = e.station.number ∧ t.station.state = e.station.state ∧ t.station.mute = e.station.mute ∧
      t.link.latch = none ∧ t.link.arbRead = [] ∧ (e.link.idle < 192 → t.link.state = .idle) ∧
      (192 ≤ e.link.idle → t.link.state = .idle ∨ (t.link.state = .arbitrating ∧ t.link.queue ≠ [])) ∧
      t.rxQueue = e.rxQueue ∧ t.belt = e.belt ∧ t.scan = e.scan ∧ t.former = e.former ∧
      t.outlets = e.outlets ∧ t.table.slots = e.table.slots ∧
      ∀ c : Counter, c ≠ .txDropped → c ≠ .txStale → t.counter c = e.counter c

/-- A valid frame of another number, whatever its kind and content, reloads the silence timer of its sender's slot and takes a
QUIET slot to PRESENT, its fields kept (R152, R168): said here of an ESCAPE and of a malformed HELLO or ESCAPE. A HELLO whose
outlet kind code is 3 and an ESCAPE whose class code is above 5 are counted NOTICE-MALFORMED and do nothing else. Any other
ESCAPE raises the escape-reported counter of the class it carries when its target is this station, and counts nothing when it is
another (R154). -/
def Obligations.EscapeIsCounted : Prop :=
  ∀ (l : Lapse) (rx : List LineByte) (arb kl : Byte) (payload : List Byte) (latch : Count) (n : Fin 16) (kind : Nat)
    (s e : State), e = s.elapse l → e.rst.asserted = false → e.link.state = .receiving →
    e.link.latch = some latch → receive (e.link.reads rx) [] = .valid arb kl payload → kind = kl.toNat / 32 →
    n.val = arb.toNat % 16 → n ≠ e.station.number →
    (let byte := fun k : Nat => (payload.getD k 0).toNat;
      let malformed := (kind = 1 ∧ byte 4 / 64 = 3) ∨ (kind = 3 ∧ 5 < byte 3 % 8);
      (malformed ∨ kind = 3) →
      ∃ t, exec (.validFrame l rx) s = .next t ∧
        (let slot := e.station.roster[n];
          let others := fun k : Counter => ∀ c : Counter, c ≠ k → c ≠ .txDropped → c ≠ .txStale →
            t.counter c = e.counter c;
          let counts := fun k : Counter => t.counter k = saturatingInc (e.counter k) ∧ others k;
          t.station.roster = e.station.roster.set n
            ⟨if slot.state = .quiet then .present else slot.state, slot.fields,
            if slot.state = .self then slot.silence else some 0⟩ ∧
          (e.opts.cover = some n → t.station.mode = t.modeNow) ∧
          (e.opts.cover ≠ some n → t.station.mode = e.station.mode) ∧
          (malformed → counts .noticeMalformed) ∧
          (¬malformed → byte 0 % 16 = e.station.number.val → ∀ c : PieceClass,
            [PieceClass.ferrous, .steelLow, .nonferrous, .board, .inert, .unknown][byte 3 % 8]? = some c →
            counts (.escapeReported c)) ∧
          (¬malformed → byte 0 % 16 ≠ e.station.number.val → others .txDropped) ∧
          t.link.arbRead = [] ∧ t.link.latch = none ∧ t.rxQueue = e.rxQueue ∧ t.belt = e.belt ∧ t.scan = e.scan ∧
          t.former = e.former ∧ t.outlets = e.outlets ∧ t.table.slots = e.table.slots))

/-- A PIECE of another number reloads the silence timer of its sender's slot and takes a QUIET slot to PRESENT, its fields
kept (R152, R168). It is ignored in SETUP and JOINING; otherwise a malformed one, by the class, verdict, length, area and
lane tests of R152, is counted NOTICE-MALFORMED, one from a slot that is neither PRESENT nor QUIET or from outside the
listen reach NOTICE-IGNORED, and an accepted one joins a receive queue of fewer than 4 with the sender's S and the fields of
its payload, or is counted RX-QUEUE-FULL (R152, R155, R156). A valid frame carrying the station's own number sets the mute
flag, empties the transmit queue and drops the pending HELLO without counting them; when the flag is set it has no effect
but the end of the reception (R136, R142, R164). -/
def Obligations.PiecesAndOwnNumber : Prop :=
  (∀ (l : Lapse) (rx : List LineByte) (arb kl : Byte) (payload : List Byte) (latch : Count) (n : Fin 16)
    (s e : State), e = s.elapse l → e.rst.asserted = false → e.link.state = .receiving → e.link.latch = some latch →
    receive (e.link.reads rx) [] = .valid arb kl payload → kl.toNat / 32 = 2 → n.val = arb.toNat % 16 →
    n ≠ e.station.number →
    ∃ t, exec (.validFrame l rx) s = .next t ∧ t.belt = e.belt ∧ t.former = e.former ∧ t.table.slots = e.table.slots ∧
      (let others := fun k : Counter => ∀ c : Counter, c ≠ k → c ≠ .txDropped → c ≠ .txStale → t.counter c = e.counter c;
        let counts := fun k : Counter => t.rxQueue = e.rxQueue ∧ t.counter k = saturatingInc (e.counter k) ∧ others k;
        let slot := e.station.roster[n];
        let byte := fun k : Nat => (payload.getD k 0).toNat;
        let flag := fun (k : Nat) => decide (byte 1 / 2 ^ k % 2 = 1);
        let first := byte 7 % 32;
        let last := byte 8 % 32;
        let centroid := byte 9 % 32;
        let length := 256 * byte 5 + byte 6;
        let area := 256 * byte 10 + byte 11;
        let malformed := 5 < byte 12 % 8 ∨ 6 < byte 13 % 8 ∨ length = 0 ∨ area = 0 ∨ 8160 < area ∨ last < first ∨
          centroid < first ∨ last < centroid;
        t.station.roster = e.station.roster.set n
          ⟨if slot.state = .quiet then .present else slot.state, slot.fields,
            if slot.state = .self then slot.silence else some 0⟩ ∧
        (e.opts.cover = some n → t.station.mode = t.modeNow) ∧ (e.opts.cover ≠ some n → t.station.mode = e.station.mode) ∧
        ((e.station.state = .setup ∨ e.station.state = .joining) → t.rxQueue = e.rxQueue ∧ others .txDropped) ∧
        ((e.station.state = .running ∨ e.station.state = .paused) →
          (malformed → counts .noticeMalformed) ∧
          (¬malformed →
            (slot.state ≠ .present → slot.state ≠ .quiet → counts .noticeIgnored) ∧
            ∀ h, (slot.state = .present ∨ slot.state = .quiet) → slot.fields = some h →
              ((e.opts.s : Int) - (h.s : Int) < 1 ∨ (e.opts.listen : Int) < (e.opts.s : Int) - (h.s : Int) →
                counts .noticeIgnored) ∧
              (1 ≤ (e.opts.s : Int) - (h.s : Int) → (e.opts.s : Int) - (h.s : Int) ≤ (e.opts.listen : Int) →
                (∀ (c : PieceClass) (v : Verdict), e.rxQueue.length < 4 →
                  [PieceClass.ferrous, .steelLow, .nonferrous, .board, .inert, .unknown][byte 12 % 8]? = some c →
                  [Verdict.passed, .ejected, .removed, .trimmed, .denied, .late, .carried][byte 13 % 8]? = some v →
                  t.rxQueue = e.rxQueue ++ [
                    { station := n, s := h.s, tag := BitVec.ofNat 12 (16 * byte 0 + byte 1 / 16)
                      flags := { long := flag 3, continued := flag 2, edge := flag 1, coilOnly := flag 0 }
                      linepos := BitVec.ofNat 24 (65536 * byte 2 + 256 * byte 3 + byte 4), length := length
                      first := first, last := last, centroid := centroid, area := area, cls := c, verdict := v
                      latch := latch }] ∧ others .txDropped) ∧
                (4 ≤ e.rxQueue.length → counts .rxQueueFull)))))) ∧
  ∀ (l : Lapse) (rx : List LineByte) (arb kl : Byte) (payload : List Byte) (latch : Count) (s e : State),
    e = s.elapse l → e.rst.asserted = false → e.link.state = .receiving → e.link.latch = some latch →
    receive (e.link.reads rx) [] = .valid arb kl payload → arb.toNat % 16 = e.station.number.val →
    exec (.validFrame l rx) s = .next (handOn e (if e.station.mute then
        { e with link := { e.link with state := .idle, arbRead := [], latch := none } }
      else
        { e with
          link := { e.link with state := .idle, arbRead := [], latch := none, queue := [], waiting := none }
          station := { e.station with mute := true } }))

/-- JOINING ends in RUNNING 400,000 µs after its entry, with the HELLO timer started; the HELLO timer, at 200,000 µs,
requests a HELLO and runs on from the excess (log 3's reading). In RUNNING and PAUSED with the mute flag clear the HELLO
replaces the content of a queued HELLO, waits behind one being attempted, joins a queue with room, or displaces from a full
one the last ESCAPE of the highest ARB, counted TX-DROPPED; else it waits; and with a HELLO pending it replaces that one's
content, whatever the queue holds, which is the model's reading of R141 (log 19) (R140, R141, R145, R146, R161, R165). A
PRESENT slot silent for 600,000 µs becomes QUIET, and a QUIET slot silent for 800,000 µs ABSENT, its fields kept; the mode
is evaluated when it is the cover station's slot, ALONE for an ABSENT one (R168, R169). -/
def Obligations.StationTimersAct : Prop :=
  (∀ (l : Lapse) (n : Nat) (s e : State), e = s.elapse l → e.rst.asserted = false →
    (e.station.state = .joining → e.station.joining = some n → 400000 ≤ n →
      exec (.joiningTimerExpiry l) s = .next (handOn e { e with
        station := { e.station with state := .running, joining := none, hello := some 0 } })) ∧
    (e.station.hello = some n → 200000 ≤ n → (e.station.state = .setup ∨ e.station.state = .joining ∨ e.station.mute = true) →
      exec (.helloTimerExpiry l) s = .next (handOn e { e with
        station := { e.station with hello := some (n - 200000) } })) ∧
    (e.station.hello = some n → 200000 ≤ n → (e.station.state = .running ∨ e.station.state = .paused) →
      e.station.mute = false →
      (let h : HelloFields :=
          { s := e.opts.s, o := e.opts.o, kind := e.opts.kind, scan := e.opts.scan, step := e.opts.stepCode
            station := e.station.state, belt := e.belt.state, outlet := e.outletState, mode := e.station.mode };
        let hello : Notice := ⟨80 + e.station.number.val, .hello h, false⟩;
        let q := e.link.queue;
        let idle := fun x : Notice => x.attempted = false ∧ ∃ y, x.body = .escape y;
        let with_ := fun (q : List Notice) (w : Option HelloFields) => { e with
          station := { e.station with hello := some (n - 200000) }, link := { e.link with queue := q, waiting := w } };
        (e.link.waiting ≠ none ∨ (∃ x, q.find? (fun x => x.isHello) = some x ∧ x.attempted = true) →
          exec (.helloTimerExpiry l) s = .next (handOn e (with_ q (some h)))) ∧
        (e.link.waiting = none → ∀ x, q.find? (fun x => x.isHello) = some x → x.attempted = false →
          exec (.helloTimerExpiry l) s = .next (handOn e
            (with_ (q.map fun x => if x.isHello then { x with body := .hello h } else x) none))) ∧
        (e.link.waiting = none → (∀ x ∈ q, x.isHello = false) →
          (q.length < 16 → exec (.helloTimerExpiry l) s = .next (handOn e (with_ (queueWith hello q) none))) ∧
          (16 ≤ q.length → (∀ x ∈ q, ¬idle x) →
            exec (.helloTimerExpiry l) s = .next (handOn e (with_ q (some h)))) ∧
          ∀ before x after, 16 ≤ q.length → q = before ++ x :: after → idle x → (∀ y ∈ before, idle y → y.arb ≤ x.arb) →
            (∀ y ∈ after, idle y → y.arb < x.arb) →
            exec (.helloTimerExpiry l) s = .next (handOn e
              (State.bump (with_ (queueWith hello (before ++ after)) none) .txDropped))))) ∧
    (n < 200000 → e.station.hello = some n → exec (.helloTimerExpiry l) s = .next (handOn e e))) ∧
  ∀ (l : Lapse) (n : Fin 16) (x : Nat) (s e : State), e = s.elapse l → e.rst.asserted = false →
    e.station.roster[n].silence = some x → e.opts.cover ≠ some n ∨ e.station.mode = e.modeNow →
    (e.station.roster[n].state = .present → 600000 ≤ x →
      exec (.quiet l n) s = .next (handOn e { e with
        station := { e.station with roster := e.station.roster.set n { e.station.roster[n] with state := .quiet } } })) ∧
    (e.station.roster[n].state = .quiet → 800000 ≤ x →
      exec (.absent l n) s = .next (handOn e { e with
        station := { e.station with
          roster := e.station.roster.set n { e.station.roster[n] with state := .absent }
          mode := if e.opts.cover = some n then .alone else e.station.mode } })) ∧
    (e.station.roster[n].state ≠ .present ∨ x < 600000 → exec (.quiet l n) s = .next (handOn e e)) ∧
    (e.station.roster[n].state ≠ .quiet ∨ x < 800000 → exec (.absent l n) s = .next (handOn e e))

/-- START takes SETUP with a valid block to JOINING, its timer started; PAUSE takes RUNNING to PAUSED; RESUME takes PAUSED
to RUNNING and ends every test lane (the opened-at time of a lane it closes is dropped, the model's choice, log 26); each
answers OK. In any other state each is REFUSED-STATE and changes nothing but the response (R107, R160, R162, R173). -/
def Obligations.StateCommandsAnswer : Prop :=
  ∀ (t : Transaction) (s e : State), e = s.elapse t.lapse → e.rst.asserted = false → t.selected ≤ e.rst.sinceEnd →
    e.store.writing = none →
    (e.station.state = .setup → e.valid = true →
      exec (.start t) s = .next (handOn e (State.answer { e.discardResponse with
        station := { e.station with state := .joining, joining := some 0 } } .ok []))) ∧
    (e.station.state ≠ .setup ∨ e.valid = false →
      exec (.start t) s = .next (handOn e (e.discardResponse.answer .refusedState []))) ∧
    (e.station.state = .running →
      exec (.pause t) s = .next (handOn e (State.answer { e.discardResponse with
        station := { e.station with state := .paused } } .ok []))) ∧
    (e.station.state ≠ .running →
      exec (.pause t) s = .next (handOn e (e.discardResponse.answer .refusedState []))) ∧
    (e.station.state = .paused →
      exec (.resume t) s = .next (handOn e (State.answer { e.discardResponse with
        station := { e.station with state := .running }
        outlets := { e.outlets with
          lanes := Vector.ofFn fun n => if e.outlets.lanes[n].test.isSome then
              { e.outlets.lanes[n].release with test := none } else e.outlets.lanes[n] } } .ok []))) ∧
    (e.station.state ≠ .paused →
      exec (.resume t) s = .next (handOn e (e.discardResponse.answer .refusedState [])))

/-! ### Service port and reset -/

/-- The pins and lines. While reset is asserted OUT0..OUT31, GATE_DIV, ROTOR_OK and READY are low, ALERT_N is released,
LB_TX is recessive, CUR_CLK and CUR_LD are held low and SDO is high-impedance (R32, R182). Otherwise an output is high
exactly while its lane is OPEN (R93); GATE_DIV in MOVING-OUT and DIVERT of a GATE station (R112); ROTOR_OK on a RUNNING GATE
station whose gate is not in FAULT (R123); READY with a complete response; ALERT_N is low with a reason or a cause flag
(R175); LB_TX carries the frame of an attempt, start bit, data bits most significant first and stop bit, a dominant break,
and recessive otherwise (R128, R133, R137); a curtain read has 40 clocks, CUR_LD pulsed with the first (R20), and that clock
k + 1 falls in µs k of its sweep and the lines are at rest between reads is the model's choice (log 13); and SDO carries,
with SEL_N low, the status, the length and the data of the response, NOT-READY with length 0 without one, then 0x00, each
byte bit by bit at the clocks of SCK, most significant first (R172, R173). -/
def Obligations.PinsShowState : Prop :=
  ∀ s : State,
    (s.rst.asserted = true → (∀ n, s.outPin n = false) ∧ s.gateDiv = false ∧ s.rotorOk = false ∧ s.ready = false ∧
      s.alert = false ∧ (∀ k, s.lbTx k = .recessive) ∧ s.curtainLines = .heldLow ∧ ∀ high k, s.sdo high k = none ∧ s.sdoBit high k = none) ∧
    (s.rst.asserted = false →
      (∀ n, s.outPin n = true ↔ s.outlets.lanes[n].state = .opened) ∧
      (s.gateDiv = true ↔ s.opts.kind = .gate ∧ (s.gate.state = .movingOut ∨ s.gate.state = .divert)) ∧
      (s.rotorOk = true ↔ s.opts.kind = .gate ∧ s.station.state = .running ∧ s.gate.state ≠ .fault) ∧
      (s.ready = true ↔ s.port.response ≠ none) ∧
      (s.alert = true ↔ s.port.attention ≠ ⟨false, false, false, false, false⟩ ∨
        s.rst.causes ≠ ⟨false, false, false, false, false⟩) ∧
      (∀ k, s.link.state = .idle ∨ s.link.state = .receiving ∨ s.link.state = .lineFault → s.lbTx k = .recessive) ∧
      (∀ k, s.link.state = .breaking → s.lbTx k = .dominant) ∧
      (∀ f, (s.link.state = .arbitrating ∨ s.link.state = .sending) → s.link.frame = some f →
        ∀ (k : Nat) (b : Byte), f.bytes[k]? = some b →
          s.lbTx (10 * k) = .dominant ∧ s.lbTx (10 * k + 9) = .recessive ∧
            ∀ j : Fin 8, s.lbTx (10 * k + 1 + j.val) = if b.getLsbD (7 - j.val) then .recessive else .dominant) ∧
      (s.scan.job = some .sweep → s.scan.jobTime < 40 → s.curtainLines = .reading (s.scan.jobTime + 1)) ∧
      ((s.scan.job ≠ some .sweep ∨ 40 ≤ s.scan.jobTime) → s.curtainLines = .atRest) ∧
      (∀ k, s.sdo true k = none) ∧
      (∀ (high : Bool) (k : Nat) (i : Fin 8), (s.sdo high k = none → s.sdoBit high (8 * k + i.val) = none) ∧
        ∀ b, s.sdo high k = some b → s.sdoBit high (8 * k + i.val) = some (b.getLsbD (7 - i.val))) ∧
      (s.port.response = none → s.sdo false 0 = some 4 ∧ ∀ k, s.sdo false (k + 1) = some 0) ∧
      ∀ r, s.port.response = some r →
        s.sdo false 0 = some (match r.status with
          | .ok => 0
          | .refusedState => 1
          | .refusedArg => 2
          | .busy => 3
          | .notReady => 4) ∧
        s.sdo false 1 = some (BitVec.ofNat 8 r.data.length) ∧
        (∀ (k : Nat) (b : Byte), r.data[k]? = some b → s.sdo false (k + 2) = some b) ∧
        ∀ k, r.data.length ≤ k → s.sdo false (k + 2) = some 0)

/-- The layouts of section 11.7, byte by byte, with the codes of sections 9.2 and 11.7 as numbers: the status record (R176),
the group of four roster slots, each a state byte and its fields as a HELLO payload, the two parts of an entry in use and
the state alone of a FREE slot (R72, R177), and the seven counter pages, four bytes a counter, most significant first
(R178). -/
def Obligations.ResponseLayouts : Prop :=
  ∀ s : State,
    (let byte := fun v : Nat => BitVec.ofNat 8 v;
      let two := fun v : Nat => [byte (v / 256), byte v];
      let three := fun v : Nat => [byte (v / 65536), byte (v / 256), byte v];
      let four := fun v : Nat => [byte (v / 16777216), byte (v / 65536), byte (v / 256), byte v];
      let signed := fun v : Int => four ((v % 4294967296).toNat);
      let flag := fun (b : Bool) (w : Nat) => if b then w else 0;
      let piece := fun f : PieceFlags => flag f.long 8 + flag f.continued 4 + flag f.edge 2 + flag f.coilOnly 1;
      let window := fun f : WindowFlags => flag f.lateOpen 1 + flag f.longCut 2 + flag f.lanesTrimmed 4 + flag f.cut 8;
      let station := fun x : StationState => match x with
        | .setup => 0 | .joining => 1 | .running => 2 | .paused => 3;
      let belt := fun x : BeltState => match x with
        | .stopped => 0 | .unsettled => 1 | .moving => 2 | .reversing => 3;
      let outlet := fun x : OutletState => match x with
        | .nothing => 0 | .unavailable => 1 | .limited => 2 | .available => 3;
      let band := fun x : Band => match x with
        | .fault => 0 | .low => 1 | .normal => 2;
      let gate := fun x : GateState => match x with
        | .rest => 0 | .movingOut => 1 | .divert => 2 | .movingBack => 3 | .fault => 4;
      let kind := fun x : OutletKind => match x with
        | .nothing => 0 | .lanes => 1 | .gate => 2;
      let heard := fun x : SlotState => match x with
        | .unknown => 0 | .present => 1 | .quiet => 2 | .absent => 3 | .mismatch => 4 | .self => 5;
      let stage := fun x : EntryState => match x with
        | .expected => 1 | .due => 2 | .acting => 3 | .passing => 4;
      let class' := fun x : PieceClass => match x with
        | .ferrous => 0 | .steelLow => 1 | .nonferrous => 2 | .board => 3 | .inert => 4 | .unknown => 5;
      let verdict := fun x : Verdict => match x with
        | .passed => 0 | .ejected => 1 | .removed => 2 | .trimmed => 3 | .denied => 4 | .late => 5 | .carried => 6;
      s.statusRecord =
        [byte (station s.station.state), byte (belt s.belt.state)] ++ three s.belt.t64 ++
          [byte (flag (decide (s.station.mode = .alone)) 128 + band s.scan.band), byte (outlet s.outletState),
            byte (gate s.gate.state),
            byte (flag s.station.mute 1 + flag (decide (s.link.state = .lineFault)) 2 +
              flag (decide (s.gate.state = .fault)) 4 + flag s.scan.coilWeak 8 + flag s.scan.curtainFault 16 + flag s.valid 32),
            byte (flag s.port.attention.stateChange 1 + flag s.port.attention.gateFault 2 + flag s.port.attention.mute 4 +
              flag s.port.attention.lineFault 8 + flag s.port.attention.bandFault 16),
            byte ((List.finRange 128).countP fun i => s.table.slots[i].isSome), byte s.former.queue.length,
            byte s.rxQueue.length, byte s.outlets.openQ.length, byte s.outlets.closeQ.length, byte s.table.escapes.length,
            byte s.link.queue.length, byte s.station.number.val] ∧
      (let slot := fun n : Fin 16 => byte (heard s.station.roster[n].state) ::
          match s.station.roster[n].fields with
          | some h => two h.s ++ two h.o ++ [byte (64 * kind h.kind + flag h.scan 32), byte h.step,
              byte (64 * station h.station + 16 * belt h.belt), byte (64 * outlet h.outlet + flag (decide (h.mode = .alone)) 32)]
          | none => [0, 0, 0, 0, 0, 0, 0, 0];
        s.rosterGroup 0 = slot 0 ++ slot 1 ++ slot 2 ++ slot 3 ∧ s.rosterGroup 1 = slot 4 ++ slot 5 ++ slot 6 ++ slot 7 ∧
        s.rosterGroup 2 = slot 8 ++ slot 9 ++ slot 10 ++ slot 11 ∧
        s.rosterGroup 3 = slot 12 ++ slot 13 ++ slot 14 ++ slot 15) ∧
      (let page := fun cs : List Counter => cs.flatMap fun c => four (s.counter c).toNat;
        let byClass := fun k : PieceClass → Counter =>
          [k .ferrous, k .steelLow, k .nonferrous, k .board, k .inert, k .unknown];
        s.pageBytes 0 = page [.encoderFault, .stops, .rowOverrun, .pieceDropped, .tableFull, .lateReport, .passedBy,
          .expectedUnseen, .maybeUnseen, .escapeListOverflow, .deniedBudget, .deniedBlocked, .deniedQueue, .deniedUnsettled,
          .maxOnTrip, .bandDropClose] ∧
        s.pageBytes 1 = page [.gateFault, .holdThrough, .rxFraming, .rxGap, .rxUnknownKind, .rxLength, .rxCrc, .txBit,
          .txDropped, .lineFaults, .txStale, .noticeMalformed, .noticeIgnored, .rxQueueFull] ∧
        s.pageBytes 2 = page (byClass .escapeReported) ∧
        s.pageBytes 3 = page (byClass (.verdict .passed) ++ byClass (.verdict .ejected)) ∧
        s.pageBytes 4 = page (byClass (.verdict .removed) ++ byClass (.verdict .trimmed)) ∧
        s.pageBytes 5 = page (byClass (.verdict .denied) ++ byClass (.verdict .late)) ∧
        s.pageBytes 6 = page (byClass (.verdict .carried))) ∧
      ∀ i : Fin 128,
        (s.table.slots[i] = none → s.entryPart i 0 = [0] ∧ s.entryPart i 1 = [0]) ∧
        ∀ en : Entry, s.table.slots[i] = some en →
          (let part := en.own.getD ⟨.ferrous, 0, 0, 0, ⟨false, false, false, false⟩⟩;
            let points := (en.decision.bind Decision.points).getD (0, 0);
            let d := en.decision.getD ⟨.ferrous, false, none, 0, ⟨false, false, false, false⟩⟩;
            let x := en.expectation.getD ⟨0, 0, false⟩;
            let source := en.escapeSource.getD (0, 0);
            s.entryPart i 0 =
              [byte (stage en.state),
                byte (flag en.tag.isSome 1 + flag en.own.isSome 2 + flag en.escapeSource.isSome 4 +
                  flag en.expectation.isSome 8 + flag en.deadline.isSome 16 + flag en.decision.isSome 32)] ++
              two (en.tag.getD 0).toNat ++ three en.lead.toNat ++ three en.trail.toNat ++
              [byte en.first, byte en.last, byte en.centroid] ++ two en.area ++
              [byte (16 * piece part.flags + class' part.cls)] ++ two part.nc ++ signed part.sumI ++ signed part.sumQ ++
              three x.e.toNat ++ two (x.h + flag x.perhaps 32768) ++ three (en.deadline.getD 0).toNat ++
              [byte (class' d.cls + flag d.target 128)] ++ three points.1.toNat ++ three points.2.toNat ++
              four d.granted.toNat ++ [byte (window d.flags), byte source.1.val] ++ two source.2.toNat ++
              [byte en.reports.length] ∧
            s.entryPart i 1 = [byte (stage en.state), byte en.reports.length] ++ en.reports.flatMap fun r =>
              [byte r.station.val] ++ two r.s ++ two r.tag.toNat ++ [byte (class' r.cls + 16 * verdict r.verdict)] ++ two r.area ++
                [byte (piece r.flags)] ++ three r.lead.toNat ++ two r.length ++ [byte r.first, byte r.last, byte r.centroid]))

/-- READ STATUS answers the status record of the moment, 18 bytes, and empties the attention set; READ CAUSE answers the five
cause flags and clears them all (R175, R176, R181; the bytes are ResponseLayouts'). -/
def Obligations.StatusAndCauseReads : Prop :=
  ∀ (t : Transaction) (s e : State), e = s.elapse t.lapse → e.rst.asserted = false → t.selected ≤ e.rst.sinceEnd →
    e.store.writing = none →
    e.statusRecord.length = 18 ∧
    exec (.readStatus t) s = .next (handOn e { e.discardResponse with
      port := { response := some ⟨.ok, e.discardResponse.statusRecord⟩, deferred := none
                attention := ⟨false, false, false, false, false⟩ } }) ∧
    e.discardResponse.statusRecord = e.statusRecord ∧
    exec (.readCause t) s = .next (handOn e { e.discardResponse with
      rst := { e.rst with causes := ⟨false, false, false, false, false⟩ }
      port := { e.port with
        deferred := none
        response := some ⟨.ok, [BitVec.ofNat 8 (bit e.rst.causes.power + 2 * bit e.rst.causes.supply +
          4 * bit e.rst.causes.pin + 8 * bit e.rst.causes.soft + 16 * bit e.rst.causes.config)]⟩ } })

/-- READ ROSTER, READ ENTRY, READ COUNTERS, READ AND CLEAR COUNTERS and READ OPTIONS answer what they name and change nothing
else, but for the counters of the page cleared; a READ ENTRY taken with a request in flight waits, and is answered when none
is (R177, R178; the bytes are ResponseLayouts'). A READ_ENTRY may name the claimant whose request is in flight when it is taken,
and then waits for it (the operand is the model's, log 6). -/
def Obligations.ReadsAnswer : Prop :=
  (∀ (t : Transaction) (s e : State), e = s.elapse t.lapse → e.rst.asserted = false → t.selected ≤ e.rst.sinceEnd →
    e.store.writing = none →
    (exec (.readOptions t) s = .next (handOn e (e.discardResponse.answer .ok e.store.bytes.toList))) ∧
    (∀ (g : Byte) (rest : List Byte), t.args = g :: rest →
      (g.toNat < 4 → exec (.readRoster t) s = .next (handOn e (e.discardResponse.answer .ok (e.rosterGroup g.toNat)))) ∧
      (g.toNat < 7 →
        exec (.readCounters t) s = .next (handOn e (e.discardResponse.answer .ok (e.pageBytes g.toNat))) ∧
        exec (.readAndClearCounters t) s = .next (handOn e (State.answer { e.discardResponse with
          counters := Vector.ofFn fun i => if onPage g.toNat i then 0 else e.counters[i] } .ok (e.pageBytes g.toNat))))) ∧
    (∀ (n p : Byte) (rest : List Byte) (k : Fin 128), t.args = n :: p :: rest → k.val = n.toNat → p.toNat < 2 →
      (e.table.inFlight = none →
        exec (.readEntry t none) s = .next (handOn e (e.discardResponse.answer .ok (e.entryPart k p.toNat)))) ∧
      (∀ f, e.table.inFlight ≠ none → exec (.readEntry t f) s = .next (handOn e { e.discardResponse with
        port := { e.port with response := none, deferred := some (k, p.toNat) } })) ∧
      (∀ c, e.table.inFlight = none → e.mayTake c = false →
        exec (.readEntry t (some c)) s = .next (handOn e (e.discardResponse.answer .ok (e.entryPart k p.toNat)))) ∧
      ∀ c f g, e.table.inFlight = none → e.takeRequest c (fun _ => true) = some (f, g) →
        exec (.readEntry t (some c)) s = .next (handOn e { g.discardResponse with
          table := { g.table with inFlight := some ⟨f.request, none⟩ }
          port := { g.port with response := none, deferred := some (k, p.toNat) } }))) ∧
  ∀ (l : Lapse) (k : Fin 128) (p : Nat) (s e : State), e = s.elapse l → e.rst.asserted = false →
    e.port.deferred = some (k, p) →
    (e.table.inFlight = none →
      exec (.readEntryDeferred l) s = .next (handOn e { e with
        port := { e.port with deferred := none, response := some ⟨.ok, e.entryPart k p⟩ } })) ∧
    (e.table.inFlight ≠ none → exec (.readEntryDeferred l) s = .next (handOn e e))

/-- The taking of a command discards the previous response and a READ ENTRY that waits, and withdraws a pending SAMPLE or
marks its conversion for discard. While the option store is writing every command is BUSY; an unknown code, a missing
argument (WRITE OPTIONS needs 47, READ ENTRY 2) and an argument out of range are REFUSED-ARG; none of them does anything
else (R29, R173, R174, R180). The bits of a transaction are read most significant first, those after the last whole byte
discarded: without a whole byte, or with the first byte 0x00, it brings no command, and otherwise the command of the code
with the other bytes as its arguments, which waits behind the queue's (R172, R174; the queue is log 1's, the operands log
14's). -/
def Obligations.PortTestsAnswer : Prop :=
  (∀ (t : Transaction) (code : Byte) (s e : State), e = s.elapse t.lapse → e.rst.asserted = false →
    t.selected ≤ e.rst.sinceEnd → ¬(1 ≤ code.toNat ∧ code.toNat ≤ 8) → ¬(16 ≤ code.toNat ∧ code.toNat ≤ 19) →
    code ≠ 0 → code ≠ 0x20 → code ≠ 0x21 →
    (let answered := fun st : Status => { e with
        port := { e.port with response := some ⟨st, []⟩, deferred := none }
        scan := { e.scan with
          sampleWait := none
          job := match e.scan.job with
            | some (.sample c _) => some (.sample c false)
            | j => j } };
      (e.store.writing.isSome = true → ∀ c ∈ [Instr.readStatus t, .readCause t, .readRoster t, .readCounters t,
          .readAndClearCounters t, .readOptions t, .writeOptions t, .start t, .pause t, .resume t,
          .reset t, .sample t, .testLane t, .unknownCommandCode t code],
        exec c s = .next (handOn e (answered .busy))) ∧
      (e.store.writing.isSome = true → ∀ f, exec (.readEntry t f) s = .next (handOn e (answered .busy))) ∧
      (e.store.writing = none →
        exec (.unknownCommandCode t code) s = .next (handOn e (answered .refusedArg)) ∧
        (t.args.length < 47 → exec (.writeOptions t) s = .next (handOn e (answered .refusedArg))) ∧
        (t.args.length < 2 → ∀ f, exec (.readEntry t f) s = .next (handOn e (answered .refusedArg))) ∧
        (∀ (n p : Byte) (rest : List Byte) (f : Option Claimant), t.args = n :: p :: rest → (128 ≤ n.toNat ∨ 2 ≤ p.toNat) →
          exec (.readEntry t f) s = .next (handOn e (answered .refusedArg))) ∧
        (t.args = [] → ∀ c ∈ [Instr.readRoster t, .readCounters t, .readAndClearCounters t, .sample t, .testLane t],
          exec c s = .next (handOn e (answered .refusedArg))) ∧
        (∀ (n : Byte) (rest : List Byte), t.args = n :: rest →
          (4 ≤ n.toNat → exec (.readRoster t) s = .next (handOn e (answered .refusedArg))) ∧
          (7 ≤ n.toNat → ∀ c ∈ [Instr.readCounters t, .readAndClearCounters t],
            exec c s = .next (handOn e (answered .refusedArg))) ∧
          (34 ≤ n.toNat → exec (.sample t) s = .next (handOn e (answered .refusedArg))))))) ∧
  ∀ (l : Lapse) (selected : Nat) (bytes args : List Byte) (code : Byte) (extra : List Bool) (f : Option Claimant)
    (sdi : List Bool) (t : Transaction), extra.length < 8 → t = ⟨l, selected, args⟩ →
    sdi = bytes.flatMap (fun b => (List.range 8).map fun i => b.getLsbD (7 - i)) ++ extra →
    (bytes = [] → transactionCommand l selected sdi f = none) ∧
    (bytes = 0 :: args → transactionCommand l selected sdi f = none) ∧
    (∀ x ∈ [((0x01 : Byte), Instr.readStatus t), (0x02, .readCause t), (0x03, .readRoster t), (0x04, .readEntry t f),
        (0x05, .readCounters t), (0x06, .readAndClearCounters t), (0x07, .readOptions t), (0x08, .writeOptions t),
        (0x10, .start t), (0x11, .pause t), (0x12, .resume t), (0x13, .reset t), (0x20, .sample t), (0x21, .testLane t)],
      bytes = x.1 :: args → transactionCommand l selected sdi f = some x.2) ∧
    (bytes = code :: args → ¬(1 ≤ code.toNat ∧ code.toNat ≤ 8) → ¬(16 ≤ code.toNat ∧ code.toNat ≤ 19) → code ≠ 0 →
      code ≠ 0x20 → code ≠ 0x21 → transactionCommand l selected sdi f = some (.unknownCommandCode t code)) ∧
    ∀ s : State, (transactionCommand l selected sdi f = none → s.sendTransaction l selected sdi f = s) ∧
      ∀ c, transactionCommand l selected sdi f = some c →
        s.sendTransaction l selected sdi f = { s with pending := s.pending ++ [c] }

/-- WRITE OPTIONS outside SETUP is REFUSED-STATE; in SETUP a block that fails the range or ordering tests, given field by
field from the layout of section 11.7, is REFUSED-ARG and the store untouched, and one that passes is answered OK and its
write begins with the mark cleared. The completed write holds the bytes with their CRC-8 and the mark set, and begins a
CONFIG reset; with no write in progress none completes (R179, R180, R181). -/
def Obligations.OptionWriteActs : Prop :=
  (∀ b : Vector Byte 48,
    (let u8 := fun k : Nat => (b.toList.getD k 0).toNat;
      let u16 := fun k : Nat => 256 * u8 k + u8 (k + 1);
      (blockInRange b = true ↔
        (∀ x ∈ [(u8 2 / 64, 0, 2), (u8 2 % 32, 0, 0), (u16 3, 0, 4095), (u16 5, 0, 50000), (u8 7, 0, 63), (u8 8, 0, 63),
            (u16 9, 1, 1023), (u8 12, 0, 2), (u8 13, 0, 3), (u8 14, 1, 8), (u8 15, 1, 16), (u8 16, 0, 3), (u8 17, 0, 63),
            (u8 18, 0, 63), (u8 19, 0, 63), (u16 21, 1, 8160), (u16 23, 1, 8160), (u16 25, 0, 4095), (u16 27, 1, 8190),
            (u16 29, 0, 4095), (u16 31, 0, 4095), (u16 33, 0, 4095), (u16 35, 0, 4095), (u16 37, 0, 4095), (u8 39, 0, 32),
            (u8 40, 0, 32), (u8 41, 5, 250), (u8 45, 0, 63), (u8 46, 0, 2)], x.2.1 ≤ x.1 ∧ x.1 ≤ x.2.2) ∧
          (u8 11 ≤ 3 ∨ 253 ≤ u8 11) ∧ (u8 20 ≤ 15 ∨ u8 20 = 255)) ∧
      (blockOrdered b = true ↔
        u16 31 < u16 33 ∧ u16 33 ≤ u16 37 ∧ u16 35 < u16 37 ∧ u16 31 ≤ u16 35 ∧ u8 39 ≤ u8 40))) ∧
  (∀ (args : List Byte) (k : Nat), 47 ≤ args.length → k < 47 →
    (blockOf (blockArgs args)).toList.getD k 0 = args.getD k 0) ∧
  (∀ (t : Transaction) (s e : State), e = s.elapse t.lapse → e.rst.asserted = false → t.selected ≤ e.rst.sinceEnd →
    e.store.writing = none → 47 ≤ t.args.length →
    (let block := blockOf (blockArgs t.args);
      (e.station.state ≠ .setup → exec (.writeOptions t) s = .next (handOn e (e.discardResponse.answer .refusedState []))) ∧
      (e.station.state = .setup → (blockInRange block && blockOrdered block) = false →
        exec (.writeOptions t) s = .next (handOn e (e.discardResponse.answer .refusedArg []))) ∧
      (e.station.state = .setup → (blockInRange block && blockOrdered block) = true →
        exec (.writeOptions t) s = .next (handOn e (State.answer { e.discardResponse with
          store := { e.store with mark := false, writing := some (blockArgs t.args) } } .ok []))))) ∧
  ∀ (l : Lapse) (s e : State), e = s.elapse l →
    (∀ new, e.store.writing = some new →
      ∃ t, exec (.optionWriteCompleted l) s = .next t ∧ t.store = ⟨new.push (crc8 new.toList), true, none⟩ ∧
        t.rst.asserted = true ∧ t.rst.causes = { e.rst.causes with config := true }) ∧
    (e.store.writing = none → exec (.optionWriteCompleted l) s = .next e)

/-- Each source asserts reset and sets and holds the cause flags as R181 gives them; a power-on clears the others and leaves a
low reset pin acting (log 17). The store keeps its bytes and mark; a write in progress is abandoned after some number of its
bytes (which, is free, log 11) with its mark still clear. The lanes are CLOSED, the response and the attention set empty; that
count, table, queues and counters hold their values after reset already at its start is log 12's. The rise of the supply and of
the reset pin end their source and begin the start interval again (R175, R180, R181, R182, R183). -/
def Obligations.ResetSourcesAct : Prop :=
  (∀ (l : Lapse) (t : Transaction) (s e : State), e = s.elapse l → t.lapse = l →
    (let begun := fun (c : Instr) (causes : Causes) (supplyLow pinLow : Bool) => ∃ u, exec c s = .next u ∧
        u.pending = s.pending ∧ u.rst = ⟨causes, true, supplyLow, pinLow, 0, 0⟩ ∧
        u.store.mark = e.store.mark ∧ u.store.writing = none ∧
        (e.store.writing = none → u.store.bytes = e.store.bytes) ∧
        (∀ new : Vector Byte 47, e.store.writing = some new → ∃ k : Nat, ∀ i : Fin 48,
          u.store.bytes[i] = if i.val < k then (new.push (crc8 new.toList))[i] else e.store.bytes[i]) ∧
        u.port = ⟨none, none, ⟨false, false, false, false, false⟩⟩ ∧ u.outlets = .afterReset ∧ u.belt.count = 0 ∧
        u.table = .afterReset ∧ u.rxQueue = [] ∧ u.link.queue = [] ∧ u.counters = Vector.replicate 78 0;
      begun (.powerOn l) ⟨true, false, false, false, false⟩ false e.rst.pinLow ∧
      begun (.coreSupplyDrop l) { e.rst.causes with supply := true } true e.rst.pinLow ∧
      begun (.resetPin l) { e.rst.causes with pin := true } e.rst.supplyLow true ∧
      (e.store.writing = none → e.rst.asserted = false → t.selected ≤ e.rst.sinceEnd →
        begun (.reset t) { e.rst.causes with soft := true } e.rst.supplyLow e.rst.pinLow))) ∧
  ∀ (l : Lapse) (s e : State), e = s.elapse l →
    (e.rst.supplyLow = true →
      exec (.supplyRise l) s = .next { e with rst := { e.rst with supplyLow := false, start := 0 } }) ∧
    (e.rst.pinLow = true →
      exec (.resetPinHigh l) s = .next { e with rst := { e.rst with pinLow := false, start := 0 } })

/-- A reset ends 2,000 µs after its last source has ceased, and not before. The block is valid with the mark set, its CRC-8
right and its fields within the tests, and its fields are then read by the layout of section 11.7; the station takes SETUP
with the strap low or the block invalid and JOINING otherwise; the count and the counters are 0, the belt STOPPED with the
encoder levels as its reference; all baselines are 0, no sweep, row, SAMPLE or auxiliary job is held, CURTAIN-FAULT and
COIL-WEAK are clear, the band is FAULT without a candidate, and the auxiliary schedule is at SUPPLY with its timer at 0, so
that its first tick comes 1,024 µs later (TicksAndSamples); the former and the table are empty, with no deadline; no
response and no READ ENTRY waits, the roster is UNKNOWN but for SELF, the gate REST or FAULT by its switches, and
STATE-CHANGE is in the attention set; that the options of an invalid block read 0 where R179 names no value is log 10's
(R15, R32, R47, R74, R111, R125, R144, R159, R166, R171, R179, R182, R183). -/
def Obligations.ResetEndsInFirstState : Prop :=
  (∀ st : Store,
    (let check := fun bs : List Byte => bs.foldl (fun (reg : BitVec 8) x => (List.range 8).foldl (fun reg i =>
        (reg <<< 1) ^^^ (if (reg.getLsbD 7) != x.getLsbD (7 - i) then 0x1D else 0)) reg) 0xFF;
      st.valid = true ↔ st.mark = true ∧ st.bytes[47] = check (st.bytes.toList.take 47) ∧
        blockInRange st.bytes = true ∧ blockOrdered st.bytes = true)) ∧
  (∀ b : Vector Byte 48,
    (let u8 := fun k : Nat => (b.toList.getD k 0).toNat;
      let u16 := fun k : Nat => 256 * u8 k + u8 (k + 1);
      blockInRange b = true → Options.ofBlock b =
        { s := u16 0, kind := if u8 2 / 64 = 1 then .lanes else if u8 2 / 64 = 2 then .gate else .nothing
          scan := decide (u8 2 / 32 % 2 = 1), o := u16 3, d := u16 5, pre := u8 7, post := u8 8, wMax := u16 9
          laneOffset := if u8 11 < 128 then (u8 11 : Int) else (u8 11 : Int) - 256, laneMargin := u8 12, peerWiden := u8 13
          r := u8 14, p := u8 15, stepCode := u8 16, eject := BitVec.ofNat 6 (u8 17), fallback := BitVec.ofNat 6 (u8 18)
          passive := BitVec.ofNat 6 (u8 19), cover := if u8 20 = 255 then none else some (Fin.ofNat 16 (u8 20))
          areaMin := u16 21, areaMax := u16 23, tMetal := u16 25, tCell := u16 27, coilFloor := u16 29, faultFall := u16 31
          faultRise := u16 33, lowFall := u16 35, lowRise := u16 37, bLow := u8 39, bNormal := u8 40, tOnMax := u8 41
          listen := u16 42, hb := u8 44, hd := u8 45, rate := u8 46 })) ∧
  (Options.invalid.p = 1 ∧ Options.invalid.r = 1 ∧ Options.invalid.rate = 0 ∧ Options.invalid.stepCode = 0 ∧
    Options.invalid.cover = none ∧ Options.invalid.kind = .nothing ∧ Options.invalid.scan = false ∧ Options.invalid.s = 0) ∧
  ∀ (l : Lapse) (pins : ResetPins) (s e : State), e = s.elapse l →
    ((e.rst.asserted = false ∨ e.rst.supplyLow = true ∨ e.rst.pinLow = true ∨ e.rst.start < 2000) →
      exec (.resetEnd l pins) s = .next e) ∧
    (e.rst.asserted = true → e.rst.supplyLow = false → e.rst.pinLow = false → 2000 ≤ e.rst.start →
      ∃ t, exec (.resetEnd l pins) s = .next t ∧ t.rst.asserted = false ∧ t.rst.causes = e.rst.causes ∧
        t.pending = s.pending ∧ t.store = e.store ∧ t.valid = e.store.valid ∧
        t.opts = (if e.store.valid then Options.ofBlock e.store.bytes else .invalid) ∧
        t.station.number = pins.station ∧
        t.station.state = (if pins.setupHigh = true ∧ e.store.valid = true then .joining else .setup) ∧
        t.station.joining = (if pins.setupHigh = true ∧ e.store.valid = true then some 0 else none) ∧
        t.station.hello = none ∧ t.station.mute = false ∧
        (∀ n : Fin 16, t.station.roster[n] =
          { state := if n = pins.station then .self else .unknown, fields := none, silence := none }) ∧
        t.station.mode = (if t.opts.cover = none then .assisted else .alone) ∧
        t.belt = { count := 0, sub := 0, encA := pins.encA, encB := pins.encB, state := .stopped, silence := none
                   ring := [], origin := none, t64 := 4194303, lastRow := none } ∧
        t.timeBase = 0 ∧ t.counters = Vector.replicate 78 0 ∧
        t.scan = { base := Vector.replicate 32 { i0 := 0, q0 := 0 }, sweep := none, job := none, jobTime := 0
                   sampleWait := none, auxWait := none, lastSwept := none, curtainFault := false, nextAux := .supply
                   auxTimer := 0, band := .fault, candidate := none, bandRun := 0, coilWeak := false, coilRun := 0 } ∧
        t.former = { pieces := [], longRuns := [], tag := 0, queue := [], rows := [], offers := [] } ∧
        (∀ i : Fin 128, t.table.slots[i] = none) ∧ t.table.escapes = [] ∧ t.table.reports = [] ∧
        t.table.inFlight = none ∧ t.earliest = none ∧ t.outlets.openQ = [] ∧ t.outlets.closeQ = [] ∧
        (∀ n : Fin 32, t.outlets.lanes[n] = ⟨.closed, 0, none, none, none⟩) ∧
        t.gate = { state := if t.opts.kind = .gate ∧ ¬(pins.swRest = false ∧ pins.swDiv = true) then .fault else .rest
                   holders := 0, travel := none, current := none, history := [], swRest := pins.swRest
                   swDiv := pins.swDiv } ∧
        t.link = { state := .idle, rx := e.link.rx, idle := 0, dominant := 0, ahead := 0, queue := [], waiting := none
                   frame := none, arbTime := none, arbRead := [], latch := none, breakTime := none } ∧ t.rxQueue = [] ∧
        t.port = { response := none, deferred := none
                   attention := ⟨true, decide (t.gate.state = .fault), false, false, false⟩ })

/-! ### Promises every step keeps -/

/-- Every step keeps the number of OPEN lane outlets within the budget of the current supply band (R105). -/
def Obligations.LanesStayWithinBudget : Prop :=
  ∀ s t : State, s.LanesWithinBudget → step s = .next t → t.LanesWithinBudget

/-- Every step keeps the transmit queue as R140 and R141 give it. -/
def Obligations.TransmitQueueStaysSound : Prop :=
  ∀ s t : State, s.link.TransmitQueueSound → step s = .next t → t.link.TransmitQueueSound

/-- Every step keeps the roster and the mode as R166, R168 and R169 give them. -/
def Obligations.RosterStaysSound : Prop :=
  ∀ s t : State, s.RosterSound → step s = .next t → t.RosterSound

/-- Every step keeps the gate's promises: the divert command is asserted only while the station is RUNNING and the belt MOVING
(R119), and the holder count is the number of windows in the close queue (R112). -/
def Obligations.GateStaysSound : Prop :=
  ∀ s t : State, s.GateSound → step s = .next t → t.GateSound

/-- Every step keeps these queues and lists within the length its rule gives: the timestamp ring, the overrun list, the local
piece queue, an entry's list of reports, the escape watch list, the open and close queues, the divert history, the transmit queue
and the receive queue; the report path (R52) is not among them (R7, R23, R45, R50, R69, R91, R113, R140, R156). -/
def Obligations.QueuesStayBounded : Prop :=
  ∀ s t : State, s.QueuesBounded → step s = .next t → t.QueuesBounded

/-- Every step keeps the reset logic's promises: a source that acts keeps reset asserted, and while it is asserted no response
is complete, no option write is in progress and a cause flag is set; the store's mark is clear while a write is in progress (R173,
R180, R181, R182). That the outlets hold their values after reset while it is asserted is the model's choice, log 12. -/
def Obligations.ResetStaysSound : Prop :=
  ∀ s t : State, s.ResetSound → step s = .next t → t.ResetSound

/-- The machine right after reset keeps every promise. -/
def Obligations.PromisesHoldAtReset : Prop :=
  State.reset.LanesWithinBudget ∧ State.reset.link.TransmitQueueSound ∧ State.reset.RosterSound ∧
    State.reset.GateSound ∧ State.reset.QueuesBounded ∧ State.reset.ResetSound
end

