-- ==== Sys2Proof/Laws/State.lean ====
section
/-! SUPPORT. What each update of the state leaves in each field, true by unfolding. -/

namespace Sys2Proof.Machine

variable (s : State)

/-! ### State.bump -/

@[simp] theorem State.bump_pending (c : Counter) : (s.bump c).pending = s.pending := rfl
@[simp] theorem State.bump_timeBase (c : Counter) : (s.bump c).timeBase = s.timeBase := rfl
@[simp] theorem State.bump_opts (c : Counter) : (s.bump c).opts = s.opts := rfl
@[simp] theorem State.bump_valid (c : Counter) : (s.bump c).valid = s.valid := rfl
@[simp] theorem State.bump_belt (c : Counter) : (s.bump c).belt = s.belt := rfl
@[simp] theorem State.bump_scan (c : Counter) : (s.bump c).scan = s.scan := rfl
@[simp] theorem State.bump_former (c : Counter) : (s.bump c).former = s.former := rfl
@[simp] theorem State.bump_table (c : Counter) : (s.bump c).table = s.table := rfl
@[simp] theorem State.bump_outlets (c : Counter) : (s.bump c).outlets = s.outlets := rfl
@[simp] theorem State.bump_gate (c : Counter) : (s.bump c).gate = s.gate := rfl
@[simp] theorem State.bump_link (c : Counter) : (s.bump c).link = s.link := rfl
@[simp] theorem State.bump_rxQueue (c : Counter) : (s.bump c).rxQueue = s.rxQueue := rfl
@[simp] theorem State.bump_station (c : Counter) : (s.bump c).station = s.station := rfl
@[simp] theorem State.bump_port (c : Counter) : (s.bump c).port = s.port := rfl
@[simp] theorem State.bump_store (c : Counter) : (s.bump c).store = s.store := rfl
@[simp] theorem State.bump_rst (c : Counter) : (s.bump c).rst = s.rst := rfl
@[simp] theorem State.bump_counters (c : Counter) :
    (s.bump c).counters = s.counters.set c.index (saturatingInc s.counters[c.index]) := rfl
@[simp] theorem State.bump_draws (c : Counter) : (s.bump c).draws = s.draws := rfl

/-! ### State.setSlot -/

@[simp] theorem State.setSlot_pending (i : Fin 128) (e : Option Entry) : (s.setSlot i e).pending = s.pending := rfl
@[simp] theorem State.setSlot_timeBase (i : Fin 128) (e : Option Entry) : (s.setSlot i e).timeBase = s.timeBase := rfl
@[simp] theorem State.setSlot_opts (i : Fin 128) (e : Option Entry) : (s.setSlot i e).opts = s.opts := rfl
@[simp] theorem State.setSlot_valid (i : Fin 128) (e : Option Entry) : (s.setSlot i e).valid = s.valid := rfl
@[simp] theorem State.setSlot_belt (i : Fin 128) (e : Option Entry) : (s.setSlot i e).belt = s.belt := rfl
@[simp] theorem State.setSlot_scan (i : Fin 128) (e : Option Entry) : (s.setSlot i e).scan = s.scan := rfl
@[simp] theorem State.setSlot_former (i : Fin 128) (e : Option Entry) : (s.setSlot i e).former = s.former := rfl
@[simp] theorem State.setSlot_table (i : Fin 128) (e : Option Entry) :
    (s.setSlot i e).table = { s.table with slots := s.table.slots.set i e } := rfl
@[simp] theorem State.setSlot_outlets (i : Fin 128) (e : Option Entry) : (s.setSlot i e).outlets = s.outlets := rfl
@[simp] theorem State.setSlot_gate (i : Fin 128) (e : Option Entry) : (s.setSlot i e).gate = s.gate := rfl
@[simp] theorem State.setSlot_link (i : Fin 128) (e : Option Entry) : (s.setSlot i e).link = s.link := rfl
@[simp] theorem State.setSlot_rxQueue (i : Fin 128) (e : Option Entry) : (s.setSlot i e).rxQueue = s.rxQueue := rfl
@[simp] theorem State.setSlot_station (i : Fin 128) (e : Option Entry) : (s.setSlot i e).station = s.station := rfl
@[simp] theorem State.setSlot_port (i : Fin 128) (e : Option Entry) : (s.setSlot i e).port = s.port := rfl
@[simp] theorem State.setSlot_store (i : Fin 128) (e : Option Entry) : (s.setSlot i e).store = s.store := rfl
@[simp] theorem State.setSlot_rst (i : Fin 128) (e : Option Entry) : (s.setSlot i e).rst = s.rst := rfl
@[simp] theorem State.setSlot_counters (i : Fin 128) (e : Option Entry) : (s.setSlot i e).counters = s.counters := rfl
@[simp] theorem State.setSlot_draws (i : Fin 128) (e : Option Entry) : (s.setSlot i e).draws = s.draws := rfl

/-! ### State.issue -/

@[simp] theorem State.issue_pending (r : OutletReport) : (s.issue r).pending = s.pending := rfl
@[simp] theorem State.issue_timeBase (r : OutletReport) : (s.issue r).timeBase = s.timeBase := rfl
@[simp] theorem State.issue_opts (r : OutletReport) : (s.issue r).opts = s.opts := rfl
@[simp] theorem State.issue_valid (r : OutletReport) : (s.issue r).valid = s.valid := rfl
@[simp] theorem State.issue_belt (r : OutletReport) : (s.issue r).belt = s.belt := rfl
@[simp] theorem State.issue_scan (r : OutletReport) : (s.issue r).scan = s.scan := rfl
@[simp] theorem State.issue_former (r : OutletReport) : (s.issue r).former = s.former := rfl
@[simp] theorem State.issue_table (r : OutletReport) :
    (s.issue r).table = { s.table with reports := s.table.reports ++ [r] } := rfl
@[simp] theorem State.issue_outlets (r : OutletReport) : (s.issue r).outlets = s.outlets := rfl
@[simp] theorem State.issue_gate (r : OutletReport) : (s.issue r).gate = s.gate := rfl
@[simp] theorem State.issue_link (r : OutletReport) : (s.issue r).link = s.link := rfl
@[simp] theorem State.issue_rxQueue (r : OutletReport) : (s.issue r).rxQueue = s.rxQueue := rfl
@[simp] theorem State.issue_station (r : OutletReport) : (s.issue r).station = s.station := rfl
@[simp] theorem State.issue_port (r : OutletReport) : (s.issue r).port = s.port := rfl
@[simp] theorem State.issue_store (r : OutletReport) : (s.issue r).store = s.store := rfl
@[simp] theorem State.issue_rst (r : OutletReport) : (s.issue r).rst = s.rst := rfl
@[simp] theorem State.issue_counters (r : OutletReport) : (s.issue r).counters = s.counters := rfl
@[simp] theorem State.issue_draws (r : OutletReport) : (s.issue r).draws = s.draws := rfl

/-! ### State.setFlight -/

@[simp] theorem State.setFlight_pending (f : Option Flight) : (s.setFlight f).pending = s.pending := rfl
@[simp] theorem State.setFlight_timeBase (f : Option Flight) : (s.setFlight f).timeBase = s.timeBase := rfl
@[simp] theorem State.setFlight_opts (f : Option Flight) : (s.setFlight f).opts = s.opts := rfl
@[simp] theorem State.setFlight_valid (f : Option Flight) : (s.setFlight f).valid = s.valid := rfl
@[simp] theorem State.setFlight_belt (f : Option Flight) : (s.setFlight f).belt = s.belt := rfl
@[simp] theorem State.setFlight_scan (f : Option Flight) : (s.setFlight f).scan = s.scan := rfl
@[simp] theorem State.setFlight_former (f : Option Flight) : (s.setFlight f).former = s.former := rfl
@[simp] theorem State.setFlight_table (f : Option Flight) :
    (s.setFlight f).table = { s.table with inFlight := f } := rfl
@[simp] theorem State.setFlight_outlets (f : Option Flight) : (s.setFlight f).outlets = s.outlets := rfl
@[simp] theorem State.setFlight_gate (f : Option Flight) : (s.setFlight f).gate = s.gate := rfl
@[simp] theorem State.setFlight_link (f : Option Flight) : (s.setFlight f).link = s.link := rfl
@[simp] theorem State.setFlight_rxQueue (f : Option Flight) : (s.setFlight f).rxQueue = s.rxQueue := rfl
@[simp] theorem State.setFlight_station (f : Option Flight) : (s.setFlight f).station = s.station := rfl
@[simp] theorem State.setFlight_port (f : Option Flight) : (s.setFlight f).port = s.port := rfl
@[simp] theorem State.setFlight_store (f : Option Flight) : (s.setFlight f).store = s.store := rfl
@[simp] theorem State.setFlight_rst (f : Option Flight) : (s.setFlight f).rst = s.rst := rfl
@[simp] theorem State.setFlight_counters (f : Option Flight) : (s.setFlight f).counters = s.counters := rfl
@[simp] theorem State.setFlight_draws (f : Option Flight) : (s.setFlight f).draws = s.draws := rfl

/-! ### State.drawTag -/

@[simp] theorem State.drawTag_pending : (s.drawTag).pending = s.pending := rfl
@[simp] theorem State.drawTag_timeBase : (s.drawTag).timeBase = s.timeBase := rfl
@[simp] theorem State.drawTag_opts : (s.drawTag).opts = s.opts := rfl
@[simp] theorem State.drawTag_valid : (s.drawTag).valid = s.valid := rfl
@[simp] theorem State.drawTag_belt : (s.drawTag).belt = s.belt := rfl
@[simp] theorem State.drawTag_scan : (s.drawTag).scan = s.scan := rfl
@[simp] theorem State.drawTag_former : (s.drawTag).former = { s.former with tag := s.former.tag + 1 } := rfl
@[simp] theorem State.drawTag_table : (s.drawTag).table = s.table := rfl
@[simp] theorem State.drawTag_outlets : (s.drawTag).outlets = s.outlets := rfl
@[simp] theorem State.drawTag_gate : (s.drawTag).gate = s.gate := rfl
@[simp] theorem State.drawTag_link : (s.drawTag).link = s.link := rfl
@[simp] theorem State.drawTag_rxQueue : (s.drawTag).rxQueue = s.rxQueue := rfl
@[simp] theorem State.drawTag_station : (s.drawTag).station = s.station := rfl
@[simp] theorem State.drawTag_port : (s.drawTag).port = s.port := rfl
@[simp] theorem State.drawTag_store : (s.drawTag).store = s.store := rfl
@[simp] theorem State.drawTag_rst : (s.drawTag).rst = s.rst := rfl
@[simp] theorem State.drawTag_counters : (s.drawTag).counters = s.counters := rfl
@[simp] theorem State.drawTag_draws : (s.drawTag).draws = s.draws := rfl

/-! ### State.waitHello -/

@[simp] theorem State.waitHello_pending (h : HelloFields) : (s.waitHello h).pending = s.pending := rfl
@[simp] theorem State.waitHello_timeBase (h : HelloFields) : (s.waitHello h).timeBase = s.timeBase := rfl
@[simp] theorem State.waitHello_opts (h : HelloFields) : (s.waitHello h).opts = s.opts := rfl
@[simp] theorem State.waitHello_valid (h : HelloFields) : (s.waitHello h).valid = s.valid := rfl
@[simp] theorem State.waitHello_belt (h : HelloFields) : (s.waitHello h).belt = s.belt := rfl
@[simp] theorem State.waitHello_scan (h : HelloFields) : (s.waitHello h).scan = s.scan := rfl
@[simp] theorem State.waitHello_former (h : HelloFields) : (s.waitHello h).former = s.former := rfl
@[simp] theorem State.waitHello_table (h : HelloFields) : (s.waitHello h).table = s.table := rfl
@[simp] theorem State.waitHello_outlets (h : HelloFields) : (s.waitHello h).outlets = s.outlets := rfl
@[simp] theorem State.waitHello_gate (h : HelloFields) : (s.waitHello h).gate = s.gate := rfl
@[simp] theorem State.waitHello_link (h : HelloFields) : (s.waitHello h).link = { s.link with waiting := some h } := rfl
@[simp] theorem State.waitHello_rxQueue (h : HelloFields) : (s.waitHello h).rxQueue = s.rxQueue := rfl
@[simp] theorem State.waitHello_station (h : HelloFields) : (s.waitHello h).station = s.station := rfl
@[simp] theorem State.waitHello_port (h : HelloFields) : (s.waitHello h).port = s.port := rfl
@[simp] theorem State.waitHello_store (h : HelloFields) : (s.waitHello h).store = s.store := rfl
@[simp] theorem State.waitHello_rst (h : HelloFields) : (s.waitHello h).rst = s.rst := rfl
@[simp] theorem State.waitHello_counters (h : HelloFields) : (s.waitHello h).counters = s.counters := rfl
@[simp] theorem State.waitHello_draws (h : HelloFields) : (s.waitHello h).draws = s.draws := rfl

/-! ### State.onLink -/

@[simp] theorem State.onLink_pending (f : Link → Link) : (s.onLink f).pending = s.pending := rfl
@[simp] theorem State.onLink_timeBase (f : Link → Link) : (s.onLink f).timeBase = s.timeBase := rfl
@[simp] theorem State.onLink_opts (f : Link → Link) : (s.onLink f).opts = s.opts := rfl
@[simp] theorem State.onLink_valid (f : Link → Link) : (s.onLink f).valid = s.valid := rfl
@[simp] theorem State.onLink_belt (f : Link → Link) : (s.onLink f).belt = s.belt := rfl
@[simp] theorem State.onLink_scan (f : Link → Link) : (s.onLink f).scan = s.scan := rfl
@[simp] theorem State.onLink_former (f : Link → Link) : (s.onLink f).former = s.former := rfl
@[simp] theorem State.onLink_table (f : Link → Link) : (s.onLink f).table = s.table := rfl
@[simp] theorem State.onLink_outlets (f : Link → Link) : (s.onLink f).outlets = s.outlets := rfl
@[simp] theorem State.onLink_gate (f : Link → Link) : (s.onLink f).gate = s.gate := rfl
@[simp] theorem State.onLink_link (f : Link → Link) : (s.onLink f).link = f s.link := rfl
@[simp] theorem State.onLink_rxQueue (f : Link → Link) : (s.onLink f).rxQueue = s.rxQueue := rfl
@[simp] theorem State.onLink_station (f : Link → Link) : (s.onLink f).station = s.station := rfl
@[simp] theorem State.onLink_port (f : Link → Link) : (s.onLink f).port = s.port := rfl
@[simp] theorem State.onLink_store (f : Link → Link) : (s.onLink f).store = s.store := rfl
@[simp] theorem State.onLink_rst (f : Link → Link) : (s.onLink f).rst = s.rst := rfl
@[simp] theorem State.onLink_counters (f : Link → Link) : (s.onLink f).counters = s.counters := rfl
@[simp] theorem State.onLink_draws (f : Link → Link) : (s.onLink f).draws = s.draws := rfl

/-! ### State.releaseGate -/

@[simp] theorem State.releaseGate_pending (L : Nat) : (s.releaseGate L).pending = s.pending := rfl
@[simp] theorem State.releaseGate_timeBase (L : Nat) : (s.releaseGate L).timeBase = s.timeBase := rfl
@[simp] theorem State.releaseGate_opts (L : Nat) : (s.releaseGate L).opts = s.opts := rfl
@[simp] theorem State.releaseGate_valid (L : Nat) : (s.releaseGate L).valid = s.valid := rfl
@[simp] theorem State.releaseGate_belt (L : Nat) : (s.releaseGate L).belt = s.belt := rfl
@[simp] theorem State.releaseGate_scan (L : Nat) : (s.releaseGate L).scan = s.scan := rfl
@[simp] theorem State.releaseGate_former (L : Nat) : (s.releaseGate L).former = s.former := rfl
@[simp] theorem State.releaseGate_table (L : Nat) : (s.releaseGate L).table = s.table := rfl
@[simp] theorem State.releaseGate_outlets (L : Nat) : (s.releaseGate L).outlets = s.outlets := rfl
@[simp] theorem State.releaseGate_gate (L : Nat) : (s.releaseGate L).gate = s.gate.sendBack s.belt.count L := rfl
@[simp] theorem State.releaseGate_link (L : Nat) : (s.releaseGate L).link = s.link := rfl
@[simp] theorem State.releaseGate_rxQueue (L : Nat) : (s.releaseGate L).rxQueue = s.rxQueue := rfl
@[simp] theorem State.releaseGate_station (L : Nat) : (s.releaseGate L).station = s.station := rfl
@[simp] theorem State.releaseGate_port (L : Nat) : (s.releaseGate L).port = s.port := rfl
@[simp] theorem State.releaseGate_store (L : Nat) : (s.releaseGate L).store = s.store := rfl
@[simp] theorem State.releaseGate_rst (L : Nat) : (s.releaseGate L).rst = s.rst := rfl
@[simp] theorem State.releaseGate_counters (L : Nat) : (s.releaseGate L).counters = s.counters := rfl
@[simp] theorem State.releaseGate_draws (L : Nat) : (s.releaseGate L).draws = s.draws := rfl

/-! ### State.setLane -/

@[simp] theorem State.setLane_pending (n : Fin 32) (l : Lane) : (s.setLane n l).pending = s.pending := rfl
@[simp] theorem State.setLane_timeBase (n : Fin 32) (l : Lane) : (s.setLane n l).timeBase = s.timeBase := rfl
@[simp] theorem State.setLane_opts (n : Fin 32) (l : Lane) : (s.setLane n l).opts = s.opts := rfl
@[simp] theorem State.setLane_valid (n : Fin 32) (l : Lane) : (s.setLane n l).valid = s.valid := rfl
@[simp] theorem State.setLane_belt (n : Fin 32) (l : Lane) : (s.setLane n l).belt = s.belt := rfl
@[simp] theorem State.setLane_scan (n : Fin 32) (l : Lane) : (s.setLane n l).scan = s.scan := rfl
@[simp] theorem State.setLane_former (n : Fin 32) (l : Lane) : (s.setLane n l).former = s.former := rfl
@[simp] theorem State.setLane_table (n : Fin 32) (l : Lane) : (s.setLane n l).table = s.table := rfl
@[simp] theorem State.setLane_outlets (n : Fin 32) (l : Lane) :
    (s.setLane n l).outlets = { s.outlets with lanes := s.outlets.lanes.set n l } := rfl
@[simp] theorem State.setLane_gate (n : Fin 32) (l : Lane) : (s.setLane n l).gate = s.gate := rfl
@[simp] theorem State.setLane_link (n : Fin 32) (l : Lane) : (s.setLane n l).link = s.link := rfl
@[simp] theorem State.setLane_rxQueue (n : Fin 32) (l : Lane) : (s.setLane n l).rxQueue = s.rxQueue := rfl
@[simp] theorem State.setLane_station (n : Fin 32) (l : Lane) : (s.setLane n l).station = s.station := rfl
@[simp] theorem State.setLane_port (n : Fin 32) (l : Lane) : (s.setLane n l).port = s.port := rfl
@[simp] theorem State.setLane_store (n : Fin 32) (l : Lane) : (s.setLane n l).store = s.store := rfl
@[simp] theorem State.setLane_rst (n : Fin 32) (l : Lane) : (s.setLane n l).rst = s.rst := rfl
@[simp] theorem State.setLane_counters (n : Fin 32) (l : Lane) : (s.setLane n l).counters = s.counters := rfl
@[simp] theorem State.setLane_draws (n : Fin 32) (l : Lane) : (s.setLane n l).draws = s.draws := rfl

/-! ### State.takeLane -/

@[simp] theorem State.takeLane_pending (n : Fin 32) (l : Lane) : (s.takeLane n l).pending = s.pending := rfl
@[simp] theorem State.takeLane_timeBase (n : Fin 32) (l : Lane) : (s.takeLane n l).timeBase = s.timeBase := rfl
@[simp] theorem State.takeLane_opts (n : Fin 32) (l : Lane) : (s.takeLane n l).opts = s.opts := rfl
@[simp] theorem State.takeLane_valid (n : Fin 32) (l : Lane) : (s.takeLane n l).valid = s.valid := rfl
@[simp] theorem State.takeLane_belt (n : Fin 32) (l : Lane) : (s.takeLane n l).belt = s.belt := rfl
@[simp] theorem State.takeLane_scan (n : Fin 32) (l : Lane) : (s.takeLane n l).scan = s.scan := rfl
@[simp] theorem State.takeLane_former (n : Fin 32) (l : Lane) : (s.takeLane n l).former = s.former := rfl
@[simp] theorem State.takeLane_table (n : Fin 32) (l : Lane) : (s.takeLane n l).table = s.table := rfl
@[simp] theorem State.takeLane_outlets (n : Fin 32) (l : Lane) :
    (s.takeLane n l).outlets = { s.outlets with closeQ := loseLane n s.outlets.closeQ, lanes := s.outlets.lanes.set n l } := rfl
@[simp] theorem State.takeLane_gate (n : Fin 32) (l : Lane) : (s.takeLane n l).gate = s.gate := rfl
@[simp] theorem State.takeLane_link (n : Fin 32) (l : Lane) : (s.takeLane n l).link = s.link := rfl
@[simp] theorem State.takeLane_rxQueue (n : Fin 32) (l : Lane) : (s.takeLane n l).rxQueue = s.rxQueue := rfl
@[simp] theorem State.takeLane_station (n : Fin 32) (l : Lane) : (s.takeLane n l).station = s.station := rfl
@[simp] theorem State.takeLane_port (n : Fin 32) (l : Lane) : (s.takeLane n l).port = s.port := rfl
@[simp] theorem State.takeLane_store (n : Fin 32) (l : Lane) : (s.takeLane n l).store = s.store := rfl
@[simp] theorem State.takeLane_rst (n : Fin 32) (l : Lane) : (s.takeLane n l).rst = s.rst := rfl
@[simp] theorem State.takeLane_counters (n : Fin 32) (l : Lane) : (s.takeLane n l).counters = s.counters := rfl
@[simp] theorem State.takeLane_draws (n : Fin 32) (l : Lane) : (s.takeLane n l).draws = s.draws := rfl

/-! ### State.setOpenQ -/

@[simp] theorem State.setOpenQ_pending (q : List Window) : (s.setOpenQ q).pending = s.pending := rfl
@[simp] theorem State.setOpenQ_timeBase (q : List Window) : (s.setOpenQ q).timeBase = s.timeBase := rfl
@[simp] theorem State.setOpenQ_opts (q : List Window) : (s.setOpenQ q).opts = s.opts := rfl
@[simp] theorem State.setOpenQ_valid (q : List Window) : (s.setOpenQ q).valid = s.valid := rfl
@[simp] theorem State.setOpenQ_belt (q : List Window) : (s.setOpenQ q).belt = s.belt := rfl
@[simp] theorem State.setOpenQ_scan (q : List Window) : (s.setOpenQ q).scan = s.scan := rfl
@[simp] theorem State.setOpenQ_former (q : List Window) : (s.setOpenQ q).former = s.former := rfl
@[simp] theorem State.setOpenQ_table (q : List Window) : (s.setOpenQ q).table = s.table := rfl
@[simp] theorem State.setOpenQ_outlets (q : List Window) : (s.setOpenQ q).outlets = { s.outlets with openQ := q } := rfl
@[simp] theorem State.setOpenQ_gate (q : List Window) : (s.setOpenQ q).gate = s.gate := rfl
@[simp] theorem State.setOpenQ_link (q : List Window) : (s.setOpenQ q).link = s.link := rfl
@[simp] theorem State.setOpenQ_rxQueue (q : List Window) : (s.setOpenQ q).rxQueue = s.rxQueue := rfl
@[simp] theorem State.setOpenQ_station (q : List Window) : (s.setOpenQ q).station = s.station := rfl
@[simp] theorem State.setOpenQ_port (q : List Window) : (s.setOpenQ q).port = s.port := rfl
@[simp] theorem State.setOpenQ_store (q : List Window) : (s.setOpenQ q).store = s.store := rfl
@[simp] theorem State.setOpenQ_rst (q : List Window) : (s.setOpenQ q).rst = s.rst := rfl
@[simp] theorem State.setOpenQ_counters (q : List Window) : (s.setOpenQ q).counters = s.counters := rfl
@[simp] theorem State.setOpenQ_draws (q : List Window) : (s.setOpenQ q).draws = s.draws := rfl

/-! ### State.setCloseQ -/

@[simp] theorem State.setCloseQ_pending (q : List Window) : (s.setCloseQ q).pending = s.pending := rfl
@[simp] theorem State.setCloseQ_timeBase (q : List Window) : (s.setCloseQ q).timeBase = s.timeBase := rfl
@[simp] theorem State.setCloseQ_opts (q : List Window) : (s.setCloseQ q).opts = s.opts := rfl
@[simp] theorem State.setCloseQ_valid (q : List Window) : (s.setCloseQ q).valid = s.valid := rfl
@[simp] theorem State.setCloseQ_belt (q : List Window) : (s.setCloseQ q).belt = s.belt := rfl
@[simp] theorem State.setCloseQ_scan (q : List Window) : (s.setCloseQ q).scan = s.scan := rfl
@[simp] theorem State.setCloseQ_former (q : List Window) : (s.setCloseQ q).former = s.former := rfl
@[simp] theorem State.setCloseQ_table (q : List Window) : (s.setCloseQ q).table = s.table := rfl
@[simp] theorem State.setCloseQ_outlets (q : List Window) :
    (s.setCloseQ q).outlets = { s.outlets with closeQ := q } := rfl
@[simp] theorem State.setCloseQ_gate (q : List Window) : (s.setCloseQ q).gate = s.gate := rfl
@[simp] theorem State.setCloseQ_link (q : List Window) : (s.setCloseQ q).link = s.link := rfl
@[simp] theorem State.setCloseQ_rxQueue (q : List Window) : (s.setCloseQ q).rxQueue = s.rxQueue := rfl
@[simp] theorem State.setCloseQ_station (q : List Window) : (s.setCloseQ q).station = s.station := rfl
@[simp] theorem State.setCloseQ_port (q : List Window) : (s.setCloseQ q).port = s.port := rfl
@[simp] theorem State.setCloseQ_store (q : List Window) : (s.setCloseQ q).store = s.store := rfl
@[simp] theorem State.setCloseQ_rst (q : List Window) : (s.setCloseQ q).rst = s.rst := rfl
@[simp] theorem State.setCloseQ_counters (q : List Window) : (s.setCloseQ q).counters = s.counters := rfl
@[simp] theorem State.setCloseQ_draws (q : List Window) : (s.setCloseQ q).draws = s.draws := rfl

/-! ### State.dropEscape -/

@[simp] theorem State.dropEscape_pending (k : Nat) : (s.dropEscape k).pending = s.pending := rfl
@[simp] theorem State.dropEscape_timeBase (k : Nat) : (s.dropEscape k).timeBase = s.timeBase := rfl
@[simp] theorem State.dropEscape_opts (k : Nat) : (s.dropEscape k).opts = s.opts := rfl
@[simp] theorem State.dropEscape_valid (k : Nat) : (s.dropEscape k).valid = s.valid := rfl
@[simp] theorem State.dropEscape_belt (k : Nat) : (s.dropEscape k).belt = s.belt := rfl
@[simp] theorem State.dropEscape_scan (k : Nat) : (s.dropEscape k).scan = s.scan := rfl
@[simp] theorem State.dropEscape_former (k : Nat) : (s.dropEscape k).former = s.former := rfl
@[simp] theorem State.dropEscape_table (k : Nat) :
    (s.dropEscape k).table = { s.table with escapes := s.table.escapes.eraseIdx k } := rfl
@[simp] theorem State.dropEscape_outlets (k : Nat) : (s.dropEscape k).outlets = s.outlets := rfl
@[simp] theorem State.dropEscape_gate (k : Nat) : (s.dropEscape k).gate = s.gate := rfl
@[simp] theorem State.dropEscape_link (k : Nat) : (s.dropEscape k).link = s.link := rfl
@[simp] theorem State.dropEscape_rxQueue (k : Nat) : (s.dropEscape k).rxQueue = s.rxQueue := rfl
@[simp] theorem State.dropEscape_station (k : Nat) : (s.dropEscape k).station = s.station := rfl
@[simp] theorem State.dropEscape_port (k : Nat) : (s.dropEscape k).port = s.port := rfl
@[simp] theorem State.dropEscape_store (k : Nat) : (s.dropEscape k).store = s.store := rfl
@[simp] theorem State.dropEscape_rst (k : Nat) : (s.dropEscape k).rst = s.rst := rfl
@[simp] theorem State.dropEscape_counters (k : Nat) : (s.dropEscape k).counters = s.counters := rfl
@[simp] theorem State.dropEscape_draws (k : Nat) : (s.dropEscape k).draws = s.draws := rfl

/-! ### State.setStation -/

@[simp] theorem State.setStation_pending (st : StationState) : (s.setStation st).pending = s.pending := rfl
@[simp] theorem State.setStation_timeBase (st : StationState) : (s.setStation st).timeBase = s.timeBase := rfl
@[simp] theorem State.setStation_opts (st : StationState) : (s.setStation st).opts = s.opts := rfl
@[simp] theorem State.setStation_valid (st : StationState) : (s.setStation st).valid = s.valid := rfl
@[simp] theorem State.setStation_belt (st : StationState) : (s.setStation st).belt = s.belt := rfl
@[simp] theorem State.setStation_scan (st : StationState) : (s.setStation st).scan = s.scan := rfl
@[simp] theorem State.setStation_former (st : StationState) : (s.setStation st).former = s.former := rfl
@[simp] theorem State.setStation_table (st : StationState) : (s.setStation st).table = s.table := rfl
@[simp] theorem State.setStation_outlets (st : StationState) : (s.setStation st).outlets = s.outlets := rfl
@[simp] theorem State.setStation_gate (st : StationState) : (s.setStation st).gate = s.gate := rfl
@[simp] theorem State.setStation_link (st : StationState) : (s.setStation st).link = s.link := rfl
@[simp] theorem State.setStation_rxQueue (st : StationState) : (s.setStation st).rxQueue = s.rxQueue := rfl
@[simp] theorem State.setStation_station (st : StationState) :
    (s.setStation st).station = { s.station with state := st } := rfl
@[simp] theorem State.setStation_port (st : StationState) : (s.setStation st).port = s.port := rfl
@[simp] theorem State.setStation_store (st : StationState) : (s.setStation st).store = s.store := rfl
@[simp] theorem State.setStation_rst (st : StationState) : (s.setStation st).rst = s.rst := rfl
@[simp] theorem State.setStation_counters (st : StationState) : (s.setStation st).counters = s.counters := rfl
@[simp] theorem State.setStation_draws (st : StationState) : (s.setStation st).draws = s.draws := rfl

/-! ### State.evaluateMode -/

@[simp] theorem State.evaluateMode_pending : (s.evaluateMode).pending = s.pending := rfl
@[simp] theorem State.evaluateMode_timeBase : (s.evaluateMode).timeBase = s.timeBase := rfl
@[simp] theorem State.evaluateMode_opts : (s.evaluateMode).opts = s.opts := rfl
@[simp] theorem State.evaluateMode_valid : (s.evaluateMode).valid = s.valid := rfl
@[simp] theorem State.evaluateMode_belt : (s.evaluateMode).belt = s.belt := rfl
@[simp] theorem State.evaluateMode_scan : (s.evaluateMode).scan = s.scan := rfl
@[simp] theorem State.evaluateMode_former : (s.evaluateMode).former = s.former := rfl
@[simp] theorem State.evaluateMode_table : (s.evaluateMode).table = s.table := rfl
@[simp] theorem State.evaluateMode_outlets : (s.evaluateMode).outlets = s.outlets := rfl
@[simp] theorem State.evaluateMode_gate : (s.evaluateMode).gate = s.gate := rfl
@[simp] theorem State.evaluateMode_link : (s.evaluateMode).link = s.link := rfl
@[simp] theorem State.evaluateMode_rxQueue : (s.evaluateMode).rxQueue = s.rxQueue := rfl
@[simp] theorem State.evaluateMode_station : (s.evaluateMode).station = { s.station with mode := s.modeNow } := rfl
@[simp] theorem State.evaluateMode_port : (s.evaluateMode).port = s.port := rfl
@[simp] theorem State.evaluateMode_store : (s.evaluateMode).store = s.store := rfl
@[simp] theorem State.evaluateMode_rst : (s.evaluateMode).rst = s.rst := rfl
@[simp] theorem State.evaluateMode_counters : (s.evaluateMode).counters = s.counters := rfl
@[simp] theorem State.evaluateMode_draws : (s.evaluateMode).draws = s.draws := rfl

/-! ### State.releaseConverter -/

@[simp] theorem State.releaseConverter_pending : (s.releaseConverter).pending = s.pending := rfl
@[simp] theorem State.releaseConverter_timeBase : (s.releaseConverter).timeBase = s.timeBase := rfl
@[simp] theorem State.releaseConverter_opts : (s.releaseConverter).opts = s.opts := rfl
@[simp] theorem State.releaseConverter_valid : (s.releaseConverter).valid = s.valid := rfl
@[simp] theorem State.releaseConverter_belt : (s.releaseConverter).belt = s.belt := rfl
@[simp] theorem State.releaseConverter_scan : (s.releaseConverter).scan = s.scan.release := rfl
@[simp] theorem State.releaseConverter_former : (s.releaseConverter).former = s.former := rfl
@[simp] theorem State.releaseConverter_table : (s.releaseConverter).table = s.table := rfl
@[simp] theorem State.releaseConverter_outlets : (s.releaseConverter).outlets = s.outlets := rfl
@[simp] theorem State.releaseConverter_gate : (s.releaseConverter).gate = s.gate := rfl
@[simp] theorem State.releaseConverter_link : (s.releaseConverter).link = s.link := rfl
@[simp] theorem State.releaseConverter_rxQueue : (s.releaseConverter).rxQueue = s.rxQueue := rfl
@[simp] theorem State.releaseConverter_station : (s.releaseConverter).station = s.station := rfl
@[simp] theorem State.releaseConverter_port : (s.releaseConverter).port = s.port := rfl
@[simp] theorem State.releaseConverter_store : (s.releaseConverter).store = s.store := rfl
@[simp] theorem State.releaseConverter_rst : (s.releaseConverter).rst = s.rst := rfl
@[simp] theorem State.releaseConverter_counters : (s.releaseConverter).counters = s.counters := rfl
@[simp] theorem State.releaseConverter_draws : (s.releaseConverter).draws = s.draws := rfl

/-! ### State.answer -/

@[simp] theorem State.answer_pending (st : Status) (d : List Byte) : (s.answer st d).pending = s.pending := rfl
@[simp] theorem State.answer_timeBase (st : Status) (d : List Byte) : (s.answer st d).timeBase = s.timeBase := rfl
@[simp] theorem State.answer_opts (st : Status) (d : List Byte) : (s.answer st d).opts = s.opts := rfl
@[simp] theorem State.answer_valid (st : Status) (d : List Byte) : (s.answer st d).valid = s.valid := rfl
@[simp] theorem State.answer_belt (st : Status) (d : List Byte) : (s.answer st d).belt = s.belt := rfl
@[simp] theorem State.answer_scan (st : Status) (d : List Byte) : (s.answer st d).scan = s.scan := rfl
@[simp] theorem State.answer_former (st : Status) (d : List Byte) : (s.answer st d).former = s.former := rfl
@[simp] theorem State.answer_table (st : Status) (d : List Byte) : (s.answer st d).table = s.table := rfl
@[simp] theorem State.answer_outlets (st : Status) (d : List Byte) : (s.answer st d).outlets = s.outlets := rfl
@[simp] theorem State.answer_gate (st : Status) (d : List Byte) : (s.answer st d).gate = s.gate := rfl
@[simp] theorem State.answer_link (st : Status) (d : List Byte) : (s.answer st d).link = s.link := rfl
@[simp] theorem State.answer_rxQueue (st : Status) (d : List Byte) : (s.answer st d).rxQueue = s.rxQueue := rfl
@[simp] theorem State.answer_station (st : Status) (d : List Byte) : (s.answer st d).station = s.station := rfl
@[simp] theorem State.answer_port (st : Status) (d : List Byte) :
    (s.answer st d).port = { s.port with response := some ⟨st, d⟩ } := rfl
@[simp] theorem State.answer_store (st : Status) (d : List Byte) : (s.answer st d).store = s.store := rfl
@[simp] theorem State.answer_rst (st : Status) (d : List Byte) : (s.answer st d).rst = s.rst := rfl
@[simp] theorem State.answer_counters (st : Status) (d : List Byte) : (s.answer st d).counters = s.counters := rfl
@[simp] theorem State.answer_draws (st : Status) (d : List Byte) : (s.answer st d).draws = s.draws := rfl

/-! ### State.discardResponse -/

@[simp] theorem State.discardResponse_pending : (s.discardResponse).pending = s.pending := rfl
@[simp] theorem State.discardResponse_timeBase : (s.discardResponse).timeBase = s.timeBase := rfl
@[simp] theorem State.discardResponse_opts : (s.discardResponse).opts = s.opts := rfl
@[simp] theorem State.discardResponse_valid : (s.discardResponse).valid = s.valid := rfl
@[simp] theorem State.discardResponse_belt : (s.discardResponse).belt = s.belt := rfl
@[simp] theorem State.discardResponse_former : (s.discardResponse).former = s.former := rfl
@[simp] theorem State.discardResponse_table : (s.discardResponse).table = s.table := rfl
@[simp] theorem State.discardResponse_outlets : (s.discardResponse).outlets = s.outlets := rfl
@[simp] theorem State.discardResponse_gate : (s.discardResponse).gate = s.gate := rfl
@[simp] theorem State.discardResponse_link : (s.discardResponse).link = s.link := rfl
@[simp] theorem State.discardResponse_rxQueue : (s.discardResponse).rxQueue = s.rxQueue := rfl
@[simp] theorem State.discardResponse_station : (s.discardResponse).station = s.station := rfl
@[simp] theorem State.discardResponse_port :
    (s.discardResponse).port = { s.port with response := none, deferred := none } := rfl
@[simp] theorem State.discardResponse_store : (s.discardResponse).store = s.store := rfl
@[simp] theorem State.discardResponse_rst : (s.discardResponse).rst = s.rst := rfl
@[simp] theorem State.discardResponse_counters : (s.discardResponse).counters = s.counters := rfl
@[simp] theorem State.discardResponse_draws : (s.discardResponse).draws = s.draws := rfl

/-! ### State.endTests -/

@[simp] theorem State.endTests_pending : (s.endTests).pending = s.pending := by simp only [State.endTests]
@[simp] theorem State.endTests_timeBase : (s.endTests).timeBase = s.timeBase := by simp only [State.endTests]
@[simp] theorem State.endTests_opts : (s.endTests).opts = s.opts := by simp only [State.endTests]
@[simp] theorem State.endTests_valid : (s.endTests).valid = s.valid := by simp only [State.endTests]
@[simp] theorem State.endTests_belt : (s.endTests).belt = s.belt := by simp only [State.endTests]
@[simp] theorem State.endTests_scan : (s.endTests).scan = s.scan := by simp only [State.endTests]
@[simp] theorem State.endTests_former : (s.endTests).former = s.former := by simp only [State.endTests]
@[simp] theorem State.endTests_table : (s.endTests).table = s.table := by simp only [State.endTests]
@[simp] theorem State.endTests_outlets :
    (s.endTests).outlets = { s.outlets with lanes := Vector.ofFn fun i => s.outlets.lanes[i].endTest } := by simp only [State.endTests]
@[simp] theorem State.endTests_gate : (s.endTests).gate = s.gate := by simp only [State.endTests]
@[simp] theorem State.endTests_link : (s.endTests).link = s.link := by simp only [State.endTests]
@[simp] theorem State.endTests_rxQueue : (s.endTests).rxQueue = s.rxQueue := by simp only [State.endTests]
@[simp] theorem State.endTests_station : (s.endTests).station = s.station := by simp only [State.endTests]
@[simp] theorem State.endTests_port : (s.endTests).port = s.port := by simp only [State.endTests]
@[simp] theorem State.endTests_store : (s.endTests).store = s.store := by simp only [State.endTests]
@[simp] theorem State.endTests_rst : (s.endTests).rst = s.rst := by simp only [State.endTests]
@[simp] theorem State.endTests_counters : (s.endTests).counters = s.counters := by simp only [State.endTests]
@[simp] theorem State.endTests_draws : (s.endTests).draws = s.draws := by simp only [State.endTests]

/-! ### State.clearPage -/

@[simp] theorem State.clearPage_pending (g : Nat) :
    (s.clearPage g).pending = s.pending := by simp only [State.clearPage]
@[simp] theorem State.clearPage_timeBase (g : Nat) :
    (s.clearPage g).timeBase = s.timeBase := by simp only [State.clearPage]
@[simp] theorem State.clearPage_opts (g : Nat) : (s.clearPage g).opts = s.opts := by simp only [State.clearPage]
@[simp] theorem State.clearPage_valid (g : Nat) : (s.clearPage g).valid = s.valid := by simp only [State.clearPage]
@[simp] theorem State.clearPage_belt (g : Nat) : (s.clearPage g).belt = s.belt := by simp only [State.clearPage]
@[simp] theorem State.clearPage_scan (g : Nat) : (s.clearPage g).scan = s.scan := by simp only [State.clearPage]
@[simp] theorem State.clearPage_former (g : Nat) : (s.clearPage g).former = s.former := by simp only [State.clearPage]
@[simp] theorem State.clearPage_table (g : Nat) : (s.clearPage g).table = s.table := by simp only [State.clearPage]
@[simp] theorem State.clearPage_outlets (g : Nat) :
    (s.clearPage g).outlets = s.outlets := by simp only [State.clearPage]
@[simp] theorem State.clearPage_gate (g : Nat) : (s.clearPage g).gate = s.gate := by simp only [State.clearPage]
@[simp] theorem State.clearPage_link (g : Nat) : (s.clearPage g).link = s.link := by simp only [State.clearPage]
@[simp] theorem State.clearPage_rxQueue (g : Nat) :
    (s.clearPage g).rxQueue = s.rxQueue := by simp only [State.clearPage]
@[simp] theorem State.clearPage_station (g : Nat) :
    (s.clearPage g).station = s.station := by simp only [State.clearPage]
@[simp] theorem State.clearPage_port (g : Nat) : (s.clearPage g).port = s.port := by simp only [State.clearPage]
@[simp] theorem State.clearPage_store (g : Nat) : (s.clearPage g).store = s.store := by simp only [State.clearPage]
@[simp] theorem State.clearPage_rst (g : Nat) : (s.clearPage g).rst = s.rst := by simp only [State.clearPage]
@[simp] theorem State.clearPage_counters (g : Nat) :
    (s.clearPage g).counters = Vector.ofFn fun i => if onPage g i then 0 else s.counters[i] := by simp only [State.clearPage]
@[simp] theorem State.clearPage_draws (g : Nat) : (s.clearPage g).draws = s.draws := by simp only [State.clearPage]

/-! ### attend -/

@[simp] theorem attend_pending (b : State) : (attend b s).pending = s.pending := rfl
@[simp] theorem attend_timeBase (b : State) : (attend b s).timeBase = s.timeBase := rfl
@[simp] theorem attend_opts (b : State) : (attend b s).opts = s.opts := rfl
@[simp] theorem attend_valid (b : State) : (attend b s).valid = s.valid := rfl
@[simp] theorem attend_belt (b : State) : (attend b s).belt = s.belt := rfl
@[simp] theorem attend_scan (b : State) : (attend b s).scan = s.scan := rfl
@[simp] theorem attend_former (b : State) : (attend b s).former = s.former := rfl
@[simp] theorem attend_table (b : State) : (attend b s).table = s.table := rfl
@[simp] theorem attend_outlets (b : State) : (attend b s).outlets = s.outlets := rfl
@[simp] theorem attend_gate (b : State) : (attend b s).gate = s.gate := rfl
@[simp] theorem attend_link (b : State) : (attend b s).link = s.link := rfl
@[simp] theorem attend_rxQueue (b : State) : (attend b s).rxQueue = s.rxQueue := rfl
@[simp] theorem attend_station (b : State) : (attend b s).station = s.station := rfl
@[simp] theorem attend_port (b : State) :
    (attend b s).port = { s.port with attention := s.port.attention.join (reasons b s) } := rfl
@[simp] theorem attend_store (b : State) : (attend b s).store = s.store := rfl
@[simp] theorem attend_rst (b : State) : (attend b s).rst = s.rst := rfl
@[simp] theorem attend_counters (b : State) : (attend b s).counters = s.counters := rfl
@[simp] theorem attend_draws (b : State) : (attend b s).draws = s.draws := rfl

end Sys2Proof.Machine
end

