-- ==== Sys2Proof/Laws/Ops.lean ====
section
/-! SUPPORT. What the shared operations do: counters, ordered insertion, the best of a list, belt counts, bytes. -/

namespace Sys2Proof.Machine

/-! ### Counters -/

/-- The counters in the order of the pages (section 11.7). -/
def Counter.all : List Counter :=
  [.encoderFault, .stops, .rowOverrun, .pieceDropped, .tableFull, .lateReport, .passedBy, .expectedUnseen, .maybeUnseen,
    .escapeListOverflow, .deniedBudget, .deniedBlocked, .deniedQueue, .deniedUnsettled, .maxOnTrip, .bandDropClose] ++
  [.gateFault, .holdThrough, .rxFraming, .rxGap, .rxUnknownKind, .rxLength, .rxCrc, .txBit, .txDropped, .lineFaults,
    .txStale, .noticeMalformed, .noticeIgnored, .rxQueueFull] ++
  [.ferrous, .steelLow, .nonferrous, .board, .inert, .unknown].map Counter.escapeReported ++
  [Verdict.passed, .ejected, .removed, .trimmed, .denied, .late, .carried].flatMap fun v =>
    [PieceClass.ferrous, .steelLow, .nonferrous, .board, .inert, .unknown].map (Counter.verdict v)

/-- Each counter stands at its index. -/
theorem Counter.all_index (c : Counter) : Counter.all[c.index.val]? = some c := by
  cases c with
  | escapeReported k => cases k <;> rfl
  | verdict v k => cases v <;> cases k <;> rfl
  | _ => rfl

/-- Two counters never share a place. -/
theorem Counter.index_injective {a b : Counter} (h : a.index = b.index) : a = b := by
  have ha := Counter.all_index a
  rw [h, Counter.all_index b] at ha
  exact (Option.some.inj ha).symm

/-- A counter increased is its old value plus one, saturating (R178). -/
@[simp] theorem State.counter_bump (s : State) (c : Counter) : (s.bump c).counter c = saturatingInc (s.counter c) := by
  simp [State.counter, State.bump]

/-- Every other counter keeps its value. -/
theorem State.counter_bump_of_ne (s : State) {c d : Counter} (h : d ≠ c) : (s.bump c).counter d = s.counter d := by
  have : c.index.val ≠ d.index.val := fun e => h (Counter.index_injective (Fin.ext e)).symm
  simp [State.counter, State.bump, this]

/-- A run of increases of one counter leaves the others. -/
theorem State.counter_bumps_of_ne {c d : Counter} (h : d ≠ c) : ∀ (n : Nat) (s : State),
    (State.bumps c n s).counter d = s.counter d
  | 0, _ => rfl
  | n + 1, s => by rw [State.bumps, counter_bumps_of_ne h n, State.counter_bump_of_ne s h]

/-- A run of increases changes the counters alone. -/
theorem State.bumps_eq (c : Counter) : ∀ (n : Nat) (s : State), ∃ v, State.bumps c n s = { s with counters := v }
  | 0, s => ⟨s.counters, rfl⟩
  | n + 1, s => by
    obtain ⟨v, h⟩ := State.bumps_eq c n (s.bump c)
    exact ⟨v, by rw [State.bumps, h]; rfl⟩

/-! ### Ordered insertion and the best of a list -/

/-- An insertion makes the list one longer. -/
@[simp] theorem length_insertBehind {α : Type} (after : α → α → Bool) (x : α) (xs : List α) :
    (insertBehind after x xs).length = xs.length + 1 := by
  induction xs with
  | nil => rfl
  | cons y ys ih => simp only [insertBehind]; split <;> simp [ih]

/-- An insertion adds the one element. -/
theorem insertBehind_perm {α : Type} (after : α → α → Bool) (x : α) (xs : List α) :
    (insertBehind after x xs).Perm (x :: xs) := by
  induction xs with
  | nil => exact .refl _
  | cons y ys ih =>
    simp only [insertBehind]
    split
    · exact .refl _
    · exact (ih.cons y).trans (List.Perm.swap x y ys)

/-- The members of a list with an element inserted. -/
@[simp] theorem mem_insertBehind {α : Type} (after : α → α → Bool) (x y : α) (xs : List α) :
    y ∈ insertBehind after x xs ↔ y = x ∨ y ∈ xs := by
  rw [(insertBehind_perm after x xs).mem_iff, List.mem_cons]

/-- An insertion keeps a list ordered by R, when R is transitive, "after" implies R of the new element, and not "after" R the
other way. -/
theorem pairwise_insertBehind {α : Type} {R : α → α → Prop} (after : α → α → Bool) (x : α)
    (trans : ∀ a b c, R a b → R b c → R a c) (before : ∀ y, after y x = true → R x y)
    (behind : ∀ y, after y x = false → R y x) : ∀ {xs : List α}, xs.Pairwise R → (insertBehind after x xs).Pairwise R
  | [], _ => List.pairwise_singleton R x
  | y :: ys, h => by
    obtain ⟨hy, hys⟩ := List.pairwise_cons.1 h
    simp only [insertBehind]
    split
    · rename_i ha
      refine List.pairwise_cons.2 ⟨fun z hz => ?_, h⟩
      rcases List.mem_cons.1 hz with rfl | hz
      · exact before _ ha
      · exact trans _ _ _ (before _ ha) (hy z hz)
    · rename_i ha
      refine List.pairwise_cons.2 ⟨fun z hz => ?_, pairwise_insertBehind after x trans before behind hys⟩
      rcases (mem_insertBehind after x z ys).1 hz with rfl | hz
      · exact behind _ (by simpa using ha)
      · exact hy z hz

/-- A stable sort keeps the elements. -/
theorem sortStable_perm {α : Type} (after : α → α → Bool) (xs : List α) : (sortStable after xs).Perm xs := by
  suffices ∀ acc : List α, (xs.foldl (fun acc x => insertBehind after x acc) acc).Perm (acc ++ xs) from this []
  induction xs with
  | nil => intro acc; simp
  | cons x xs ih =>
    intro acc
    refine (ih _).trans (((insertBehind_perm after x acc).append_right xs).trans ?_)
    exact (List.perm_middle (a := x) (l₁ := acc) (l₂ := xs)).symm

/-- An element is placed before the first one that comes after it. -/
theorem insertBehind_append {α : Type} {after : α → α → Bool} {x : α} {r : List α} (first : ∀ z ∈ r.head?, after z x = true) :
    ∀ {l : List α}, (∀ y ∈ l, after y x = false) → insertBehind after x (l ++ r) = l ++ x :: r
  | [], _ => by
    cases r with
    | nil => rfl
    | cons z zs => simp [insertBehind, first z rfl]
  | y :: ys, h => by
    simp [insertBehind, h y List.mem_cons_self, insertBehind_append first fun z hz => h z (List.mem_cons_of_mem y hz)]

/-- A list whose strict order is that of after is what sorting any arrangement of it gives. -/
theorem sortStable_eq {α : Type} {after : α → α → Bool} {xs : List α} : ∀ {ys : List α}, ys.Perm xs →
    ys.Pairwise (fun a b => after b a = true ∧ after a b = false) → sortStable after xs = ys := by
  induction xs using List.reverseRecOn with
  | nil => intro ys h _; rw [h.eq_nil]; rfl
  | append_singleton xs x ih =>
    intro ys h sorted
    obtain ⟨l, r, rfl⟩ := List.append_of_mem (h.mem_iff.mpr (by simp : x ∈ xs ++ [x]))
    have rest : (l ++ r).Perm xs :=
      (List.perm_cons x).mp (List.perm_middle.symm.trans (h.trans (List.perm_append_singleton x xs)))
    rw [List.pairwise_append, List.pairwise_cons] at sorted
    obtain ⟨hl, ⟨hx, hr⟩, hlr⟩ := sorted
    have step : sortStable after (xs ++ [x]) = insertBehind after x (sortStable after xs) := by
      simp [sortStable, List.foldl_append]
    rw [step, ih rest (List.pairwise_append.mpr ⟨hl, hr, fun a ha b hb => hlr a ha b (List.mem_cons_of_mem x hb)⟩)]
    exact insertBehind_append (fun z hz => (hx z (List.mem_of_mem_head? hz)).1)
      fun y hy => (hlr y hy x List.mem_cons_self).2

/-- The best of a list is one of its elements. -/
theorem pickBest_mem {α : Type} {beats : α → α → Bool} : ∀ {xs : List α} {a : α}, pickBest beats xs = some a → a ∈ xs
  | x :: xs, a, h => by
    simp only [pickBest] at h
    split at h
    · cases h; exact List.mem_cons_self
    · rename_i y hy
      split at h
      · cases h; exact List.mem_cons_of_mem _ (pickBest_mem hy)
      · cases h; exact List.mem_cons_self

/-- The element that beats every one before it and is beaten by none behind it is picked. -/
theorem pickBest_of_best {α : Type} {beats : α → α → Bool} {x : α} {after : List α}
    (behind : ∀ y ∈ after, beats y x = false) :
    ∀ {before : List α}, (∀ y ∈ before, beats x y = true) → pickBest beats (before ++ x :: after) = some x
  | [], _ => by
    simp only [List.nil_append, pickBest]
    split
    · rfl
    · rename_i y h
      simp [behind y (pickBest_mem h)]
  | y :: ys, h => by
    simp [pickBest, pickBest_of_best behind fun z hz => h z (List.mem_cons_of_mem y hz), h y List.mem_cons_self]

/-- A list has a best element unless it is empty. -/
@[simp] theorem pickBest_eq_none {α : Type} {beats : α → α → Bool} {xs : List α} : pickBest beats xs = none ↔ xs = [] := by
  cases xs with
  | nil => simp [pickBest]
  | cons x xs =>
    simp only [pickBest, reduceCtorEq, iff_false]
    split
    · simp
    · split <;> simp

/-! ### Belt counts and bytes -/

/-- A count reaches itself. -/
@[simp] theorem reaches_self (a : Count) : reaches a a = true := by simp [reaches, diff]

/-- A count offset by nothing. -/
@[simp] theorem shift_zero (a : Count) : shift a 0 = a := by simp [shift]

/-- Offsets add. -/
theorem shift_shift (a : Count) (m n : Int) : shift (shift a m) n = shift a (m + n) := by
  simp only [shift, BitVec.ofInt_add, BitVec.add_assoc]

/-- A count not past another's offset reads its difference (R3). -/
theorem diff_shift (a : Count) (n : Int) (lo : -8388608 ≤ n) (hi : n < 8388608) : diff (shift a n) a = n := by
  have : shift a n - a = BitVec.ofInt 24 n := by
    simp only [shift]; rw [BitVec.add_comm, BitVec.add_sub_cancel]
  rw [diff, this, BitVec.toInt_ofInt]
  exact Int.bmod_eq_of_le (by omega) (by omega)

/-- A number of k bytes. -/
@[simp] theorem length_bytesOf (k v : Nat) : (bytesOf k v).length = k := by
  induction k with
  | zero => rfl
  | succ k ih => simp [bytesOf, ih]

end Sys2Proof.Machine
end

