-- ==== Sys2Proof/Laws/Time.lean ====
section
/-! SUPPORT. What the passing of time does: one run of a level, and a lapse of several. -/

namespace Sys2Proof.Machine

/-- Samples change the level and the two counts alone (R131, R139). -/
theorem Link.count_eq (k : Link) (v : Level) (n : Nat) :
    ∃ x i d, k.count v n = { k with rx := x, idle := i, dominant := d } := by
  unfold Link.count
  split
  · exact ⟨k.rx, k.idle, k.dominant, rfl⟩
  · split <;> exact ⟨_, _, _, rfl⟩

/-- No sample changes nothing. -/
@[simp] theorem Link.count_zero (k : Link) (v : Level) : k.count v 0 = k := rfl

/-- Samples read one by one: each count is the number of samples of its level in a row, on top of the count before when
every sample is of that level (R131, R139). -/
theorem Link.foldl_count (k : Link) (vs : List Level) :
    vs.foldl (fun k v => k.count v 1) k = { k with
      rx := vs.getLast?.getD k.rx
      idle := if vs.all fun x => decide (x = .recessive) then k.idle + vs.length
        else (vs.reverse.takeWhile fun x => decide (x = .recessive)).length
      dominant := if vs.all fun x => decide (x = .dominant) then k.dominant + vs.length
        else (vs.reverse.takeWhile fun x => decide (x = .dominant)).length } := by
  induction vs using List.reverseRecOn with
  | nil => rfl
  | append_singleton vs v ih =>
    have full : ∀ l : Level, vs.reverse.all (fun x => decide (x = l)) = true →
        (vs.reverse.takeWhile fun x => decide (x = l)).length = vs.length := by
      intro l h
      rw [List.takeWhile_eq_self_iff.2 (by simpa using h), List.length_reverse]
    rw [List.foldl_append, ih]
    cases v <;> simp [Link.count]
    · split <;> simp_all; omega
    · split <;> simp_all; omega

/-- n samples of one level are n samples read one by one. -/
theorem Link.foldl_count_replicate (k : Link) (v : Level) (n : Nat) :
    (List.replicate n v).foldl (fun k v => k.count v 1) k = k.count v n := by
  induction n generalizing k with
  | zero => rfl
  | succ n ih =>
    rw [List.replicate_succ, List.foldl_cons, ih]
    cases v <;> unfold Link.count <;> by_cases h : n = 0 <;> simp [h] <;> omega

/-- Time changes the level, the counts and the running times of a link; it ends an arbitration that has run its length, and
changes nothing else (R131, R133, R137, R139). -/
theorem Link.pass_eq (rate : Nat) (v : Level) (n : Nat) (k : Link) :
    ∃ i d st a, k.pass rate v n = { k with
        state := st, rx := v, idle := i, dominant := d, ahead := k.ahead - n * samplesPerUs rate, arbTime := a
        breakTime := k.breakTime.map (· + n) } ∧
      (st = k.state ∧ a = k.arbTime.map (· + n) ∨ k.state = .arbitrating ∧ st = .sending ∧ a = none) := by
  obtain ⟨x, i, d, h⟩ := k.count_eq v (n * samplesPerUs rate - k.ahead)
  unfold Link.pass
  simp only [h, Link.win]
  split
  · split
    · rename_i hs
      exact ⟨i, d, _, _, rfl, .inr ⟨hs, rfl, rfl⟩⟩
    · exact ⟨i, d, _, _, rfl, .inl ⟨rfl, rfl⟩⟩
  · exact ⟨i, d, _, _, rfl, .inl ⟨rfl, rfl⟩⟩

/-- Time leaves the transmit queue. -/
@[simp] theorem Link.pass_queue (rate : Nat) (v : Level) (n : Nat) (k : Link) : (k.pass rate v n).queue = k.queue := by
  obtain ⟨_, _, _, _, h, _⟩ := Link.pass_eq rate v n k; rw [h]

/-- Time leaves the pending HELLO. -/
@[simp] theorem Link.pass_waiting (rate : Nat) (v : Level) (n : Nat) (k : Link) : (k.pass rate v n).waiting = k.waiting := by
  obtain ⟨_, _, _, _, h, _⟩ := Link.pass_eq rate v n k; rw [h]

/-- Time leaves the frame of an attempt. -/
@[simp] theorem Link.pass_frame (rate : Nat) (v : Level) (n : Nat) (k : Link) : (k.pass rate v n).frame = k.frame := by
  obtain ⟨_, _, _, _, h, _⟩ := Link.pass_eq rate v n k; rw [h]

/-- Time leaves the bits of a lost arbitration. -/
@[simp] theorem Link.pass_arbRead (rate : Nat) (v : Level) (n : Nat) (k : Link) : (k.pass rate v n).arbRead = k.arbRead := by
  obtain ⟨_, _, _, _, h, _⟩ := Link.pass_eq rate v n k; rw [h]

/-- Time leaves the latch count. -/
@[simp] theorem Link.pass_latch (rate : Nat) (v : Level) (n : Nat) (k : Link) : (k.pass rate v n).latch = k.latch := by
  obtain ⟨_, _, _, _, h, _⟩ := Link.pass_eq rate v n k; rw [h]

/-- No time changes nothing. -/
@[simp] theorem State.pass_zero (s : State) (v : Level) : s.pass v 0 = s := by simp [State.pass]

/-- Time while reset is asserted. -/
theorem State.pass_asserted (s : State) (v : Level) {n : Nat} (hn : n ≠ 0) (h : s.rst.asserted = true) :
    s.pass v n = { s with
      link := { s.link with rx := v }
      rst := { s.rst with start := if s.rst.acting then 0 else s.rst.start + n } } := by
  simp [State.pass, hn, h]

/-- Time while the part runs. -/
theorem State.pass_running (s : State) (v : Level) {n : Nat} (hn : n ≠ 0) (h : s.rst.asserted = false) :
    s.pass v n = { s with
      timeBase := s.timeBase + BitVec.ofNat 32 n
      belt := s.belt.pass n
      scan := s.scan.pass n
      outlets := s.outlets.pass n
      gate := s.gate.pass n
      link := s.link.pass s.opts.rate v n
      station := s.station.pass n
      rst := { s.rst with sinceEnd := s.rst.sinceEnd + n } } := by
  simp [State.pass, hn, h]

/-- Time never asserts or ends a reset. -/
@[simp] theorem State.pass_asserted_eq (s : State) (v : Level) (n : Nat) : (s.pass v n).rst.asserted = s.rst.asserted := by
  unfold State.pass; split
  · rfl
  · split <;> rfl

/-- Time leaves the waiting commands. -/
@[simp] theorem State.pass_pending (s : State) (v : Level) (n : Nat) : (s.pass v n).pending = s.pending := by
  unfold State.pass; split
  · rfl
  · split <;> rfl

/-- Time leaves the options. -/
@[simp] theorem State.pass_opts (s : State) (v : Level) (n : Nat) : (s.pass v n).opts = s.opts := by
  unfold State.pass; split
  · rfl
  · split <;> rfl

/-- A lapse of no run. -/
@[simp] theorem State.elapse_nil (s : State) : s.elapse [] = s := rfl

/-- A lapse run by run. -/
theorem State.elapse_cons (s : State) (r : Run) (l : Lapse) : s.elapse (r :: l) = (s.pass r.level r.us).elapse l := rfl

/-- One lapse after another. -/
theorem State.elapse_append (s : State) (l m : Lapse) : s.elapse (l ++ m) = (s.elapse l).elapse m := by
  simp [State.elapse, List.foldl_append]

/-- What one run of time keeps, a lapse keeps. -/
theorem State.elapse_keeps {P : State → Prop} (h : ∀ s v n, P s → P (s.pass v n)) :
    ∀ (l : Lapse) (s : State), P s → P (s.elapse l)
  | [], _, hs => hs
  | r :: l, s, hs => State.elapse_keeps h l (s.pass r.level r.us) (h s r.level r.us hs)

/-- A lapse never asserts or ends a reset. -/
theorem State.elapse_asserted (s : State) (l : Lapse) : (s.elapse l).rst.asserted = s.rst.asserted :=
  State.elapse_keeps (P := fun t => t.rst.asserted = s.rst.asserted) (fun t v n h => by simp [h]) l s rfl

/-- A lapse leaves the waiting commands. -/
theorem State.elapse_pending (s : State) (l : Lapse) : (s.elapse l).pending = s.pending :=
  State.elapse_keeps (P := fun t => t.pending = s.pending) (fun t v n h => by simp [h]) l s rfl

/-- A lapse leaves the options. -/
theorem State.elapse_opts (s : State) (l : Lapse) : (s.elapse l).opts = s.opts :=
  State.elapse_keeps (P := fun t => t.opts = s.opts) (fun t v n h => by simp [h]) l s rfl

end Sys2Proof.Machine
end

