-- ==== Sys2Proof/Laws/HandOn.lean ====
section
/-! SUPPORT. What an event, a transaction and the hand-on do, and the notices they request. -/

namespace Sys2Proof.Machine

/-! ### The frame of an event -/

/-- An event of the running part acts after its lapse and is handed on. -/
theorem event_running {l : Lapse} {f : State → State} {s : State} (h : (s.elapse l).rst.asserted = false) :
    event l f s = .next (handOn (s.elapse l) (f (s.elapse l))) := by
  simp only [event, h, Bool.false_eq_true, if_false]

/-- The same with the state after the lapse and the event's outcome named, as the statements name them. -/
theorem event_eq {l : Lapse} {f : State → State} {s e t : State} (he : e = s.elapse l) (h : e.rst.asserted = false)
    (hf : f e = t) : event l f s = .next (handOn e t) := by
  subst he hf
  exact event_running h

/-- While reset is asserted an event lets its lapse pass. -/
theorem event_asserted {l : Lapse} {f : State → State} {s : State} (h : (s.elapse l).rst.asserted = true) :
    event l f s = .next (s.elapse l) := by
  simp only [event, h, if_true]

/-- An event always answers a next state. -/
theorem event_next (l : Lapse) (f : State → State) (s : State) : ∃ t, event l f s = .next t := by
  unfold event; dsimp only; split <;> exact ⟨_, rfl⟩

/-- A transaction of the running part, whole, is a command taken. -/
theorem transaction_running {t : Transaction} {needs : Nat} {ok : List Byte → Bool} {own : State → State} {s : State}
    (h : (s.elapse t.lapse).rst.asserted = false) (hs : t.selected ≤ (s.elapse t.lapse).rst.sinceEnd) :
    transaction t needs ok own s =
      .next (handOn (s.elapse t.lapse) ((s.elapse t.lapse).command needs ok t.args own)) := by
  simp only [transaction, event, State.ignores, h, Bool.false_or, Bool.false_eq_true, if_false, decide_eq_true_eq,
    Nat.not_lt.2 hs]

/-- A transaction that began before a reset ended is ignored whole (R172). -/
theorem transaction_ignored {t : Transaction} {needs : Nat} {ok : List Byte → Bool} {own : State → State} {s : State}
    (h : (s.elapse t.lapse).rst.asserted = false) (hs : (s.elapse t.lapse).rst.sinceEnd < t.selected) :
    transaction t needs ok own s = .next (handOn (s.elapse t.lapse) (s.elapse t.lapse)) := by
  simp only [transaction, event, State.ignores, h, hs, Bool.false_or, Bool.false_eq_true, if_false, decide_true, if_true]

/-- What a command does: one of the tests of R174 answers it, or its own rule acts on the state without a response. -/
theorem State.command_cases (s : State) (needs : Nat) (ok : List Byte → Bool) (args : List Byte) (own : State → State) :
    (s.store.writing.isSome = true ∧ s.command needs ok args own = s.discardResponse.answer .busy []) ∨
    (s.store.writing = none ∧ (args.length < needs ∨ ok args = false) ∧
      s.command needs ok args own = s.discardResponse.answer .refusedArg []) ∨
    (s.store.writing = none ∧ needs ≤ args.length ∧ ok args = true ∧ s.command needs ok args own = own s.discardResponse) := by
  unfold State.command State.portTest
  cases hw : s.store.writing with
  | some w => left; simp
  | none =>
    right
    by_cases hn : args.length < needs
    · left; simp [hn]
    · cases ho : ok args with
      | false => left; simp [hn]
      | true => right; simp [hn, Nat.not_lt.1 hn]

/-! ### Requests and attempts change the link and two counters alone -/

/-- What a request or an attempt may change: the link, TX-DROPPED and TX-STALE. -/
structure LinkWork (s t : State) : Prop where
  eq : ∃ k v, t = { s with link := k, counters := v }
  counter : ∀ c : Counter, c ≠ .txDropped → c ≠ .txStale → t.counter c = s.counter c

/-- Nothing done is link work. -/
theorem LinkWork.refl (s : State) : LinkWork s s := ⟨⟨s.link, s.counters, rfl⟩, fun _ _ _ => rfl⟩

/-- A change of the link is link work. -/
theorem LinkWork.ofLink (s : State) (k : Link) : LinkWork s { s with link := k } :=
  ⟨⟨k, s.counters, rfl⟩, fun _ _ _ => rfl⟩

/-- Counting a dropped notice is link work. -/
theorem LinkWork.dropped (s : State) : LinkWork s (s.bump .txDropped) :=
  ⟨⟨s.link, _, rfl⟩, fun _ h _ => State.counter_bump_of_ne s h⟩

/-- Counting stale notices is link work. -/
theorem LinkWork.stale (s : State) (n : Nat) : LinkWork s (State.bumps .txStale n s) := by
  obtain ⟨v, h⟩ := State.bumps_eq .txStale n s
  exact ⟨⟨s.link, v, h⟩, fun _ _ hc => State.counter_bumps_of_ne hc n s⟩

/-- Link work after link work. -/
theorem LinkWork.trans {s t u : State} (h : LinkWork s t) (h' : LinkWork t u) : LinkWork s u := by
  obtain ⟨k, v, rfl⟩ := h.eq
  obtain ⟨k', v', rfl⟩ := h'.eq
  exact ⟨⟨k', v', rfl⟩, fun c a b => (h'.counter c a b).trans (h.counter c a b)⟩

/-- Offering a HELLO is link work (R141). -/
theorem State.offerHello_work (s : State) (h : HelloFields) : LinkWork s (s.offerHello h) := by
  unfold State.offerHello State.waitHello
  dsimp only
  split
  · exact .ofLink ..
  · split
    · split <;> exact .ofLink ..
    · split
      · exact .ofLink ..
      · split
        · exact (LinkWork.ofLink ..).trans (.dropped _)
        · exact .ofLink ..

/-- Offering a PIECE or an ESCAPE is link work (R141). -/
theorem State.offerNotice_work (s : State) (arb : Nat) (b : Body) : LinkWork s (s.offerNotice arb b) := by
  unfold State.offerNotice
  split
  · exact .ofLink ..
  · exact .dropped _

/-- Requesting a HELLO is link work (R165). -/
theorem State.requestHello_work (s : State) : LinkWork s s.requestHello := by
  unfold State.requestHello
  split
  · exact s.offerHello_work _
  · exact .refl _

/-- Requesting a PIECE is link work (R66, R147). -/
theorem State.requestPiece_work (s : State) (p : PieceNotice) : LinkWork s (s.requestPiece p) := by
  unfold State.requestPiece
  split
  · exact s.offerNotice_work ..
  · exact .refl _

/-- Requesting an ESCAPE is link work (R68, R151). -/
theorem State.requestEscape_work (s : State) (e : EscapeNotice) : LinkWork s (s.requestEscape e) := by
  unfold State.requestEscape
  split
  · exact s.offerNotice_work ..
  · exact .refl _

/-- The stale checks are link work (R150). -/
theorem State.staleChecks_work (s : State) : LinkWork s s.staleChecks := by
  unfold State.staleChecks
  dsimp only
  split
  · exact .stale _ _
  · exact (LinkWork.stale ..).trans (.ofLink ..)

/-- An attempt is link work (R132). -/
theorem State.attempt_work (s : State) : LinkWork s s.attempt := by
  unfold State.attempt State.beginAttempt
  split
  · dsimp only
    split
    · exact s.staleChecks_work
    · exact s.staleChecks_work.trans (.ofLink ..)
  · exact .refl _

/-- The conditions of an attempt (R132). -/
theorem State.mayAttempt_iff (s : State) :
    s.mayAttempt = true ↔
      s.link.state = .idle ∧ s.link.busFree = true ∧ s.mayTransmit = true ∧ s.link.queue ≠ [] := by
  simp [State.mayAttempt, and_assoc]

/-- An event that finds the conditions of an attempt met, or does not bring them about, begins none (R132). -/
theorem attemptIfReady_of {b a : State} (h : b.mayAttempt = true ∨ a.mayAttempt = false) : attemptIfReady b a = a := by
  unfold attemptIfReady State.attempt
  rcases h with h | h <;> simp [h]

/-- An announcement is link work (R165). -/
theorem announce_work (b a : State) : LinkWork a (announce b a) := by
  unfold announce
  split
  · exact a.requestHello_work
  · exact .refl _

/-- The attempt that ends an event is link work (R132). -/
theorem attemptIfReady_work (b a : State) : LinkWork a (attemptIfReady b a) := by
  unfold attemptIfReady
  split
  · exact .refl _
  · exact a.attempt_work

/-- Nothing begins to be blocked unless blocking's condition passes from false to true (R96). -/
theorem blockIfBegun_of {b a : State} (h : b.blocked = true ∨ a.blocked = false) : blockIfBegun b a = a := by
  unfold blockIfBegun
  rcases h with h | h <;> simp [h]

/-- The mark of a tie changes nothing but itself. -/
theorem markTied_eq (b a : State) : ∃ c, markTied b a = { a with table := { a.table with tied := c } } := by
  unfold markTied
  split
  · exact ⟨_, rfl⟩
  · exact ⟨a.table.tied, rfl⟩

/-- What is handed on where no blocking begins: the attention joins, link work is done, and a tie may be marked. -/
theorem handOn_eq {b a : State} (h : b.blocked = true ∨ a.blocked = false) :
    ∃ k v c, handOn b a = { a with
        pending := b.pending
        link := k
        counters := v
        table := { a.table with tied := c }
        port := { a.port with attention := a.port.attention.join (reasons b a) } } ∧
      ∀ x : Counter, x ≠ .txDropped → x ≠ .txStale → v[x.index] = a.counters[x.index] := by
  unfold handOn
  dsimp only
  rw [blockIfBegun_of h]
  obtain ⟨⟨k, v, hk⟩, hc⟩ := (announce_work b (attend b a)).trans (attemptIfReady_work b (announce b (attend b a)))
  obtain ⟨c, hm⟩ := markTied_eq b (attemptIfReady b (announce b (attend b a)))
  refine ⟨k, v, c, ?_, fun x h1 h2 => ?_⟩
  · rw [hm, hk]; rfl
  · have := hc x h1 h2
    rw [hk] at this
    exact this

/-- The waiting commands are no event's to change. -/
@[simp] theorem handOn_pending (b a : State) : (handOn b a).pending = b.pending := rfl

end Sys2Proof.Machine
end

