-- ==== Sys2Proof/Laws/Blocks.lean ====
section
/-! SUPPORT. What the operations of the belt tracker, the scan unit, the piece former, the line link, the station block and the reset logic do. -/

namespace Sys2Proof.Machine

/-! ### Queues in their order -/

/-- An insertion behind every element that does not come after it is the placing of the statements (R69, R91, R140). -/
theorem insertBehind_eq_placed {α : Type} (after : α → α → Bool) (x : α) (q : List α) :
    insertBehind after x q = placed (fun y => !after y x) x q := by
  induction q with
  | nil => rfl
  | cons y ys ih =>
    unfold insertBehind placed
    by_cases h : after y x = true
    · simp [h]
    · simp [h, ih, placed]

/-- A notice joins the transmit queue behind every notice of lower or equal ARB (R140). -/
theorem joinQueue_eq_queueWith (n : Notice) (q : List Notice) : joinQueue n q = queueWith n q := by
  have order : (fun y : Notice => !decide (n.arb < y.arb)) = fun m => decide (m.arb ≤ n.arb) := by
    funext y
    by_cases h : n.arb < y.arb
    · simp [h]
    · simp [h, Nat.not_lt.1 h]
  unfold joinQueue queueWith
  rw [insertBehind_eq_placed, order]

/-! ### Belt tracker -/

/-- The pairs of the forward order make a forward edge (R1). -/
theorem edgeOf_of_forward {x y a b : Bool} (h : ((x, y), (a, b)) ∈ forwardPairs) : edgeOf x y a b = .forward := by
  revert x y a b; decide

/-- The same pairs read back make a backward edge. -/
theorem edgeOf_of_backward {x y a b : Bool} (h : ((a, b), (x, y)) ∈ forwardPairs) : edgeOf x y a b = .backward := by
  revert x y a b; decide

/-- Both levels changed is an illegal transition. -/
theorem edgeOf_of_both {x y a b : Bool} (ha : a ≠ x) (hb : b ≠ y) : edgeOf x y a b = .illegal := by
  revert x y a b; decide

/-- The forward order's edges (R1). -/
theorem edgeOf_forward {a b a' b' : Bool} :
    edgeOf a b a' b' = .forward ↔ (a', b') = (if a = b then (!a, b) else (a, !b)) := by
  revert a b a' b'; decide

/-- An unchanged pair is no edge. -/
@[simp] theorem edgeOf_self (a b : Bool) : edgeOf a b a b = .same := by cases a <;> cases b <;> rfl

/-- An edge and the one back are opposite. -/
theorem edgeOf_backward {a b a' b' : Bool} : edgeOf a b a' b' = .backward ↔ edgeOf a' b' a b = .forward := by
  revert a b a' b'; decide

/-- The speed figure lies within 4,000 and 4,194,303 (R8). -/
theorem speedFigure_range (n dt : Nat) : 4000 ≤ speedFigure n dt ∧ speedFigure n dt ≤ noSpeed := by
  unfold speedFigure noSpeed
  split <;> omega

/-- The ring keeps at most 64 timestamps (R7). -/
theorem Belt.stamp_length (b : Belt) (now : TimeBase) (h : b.ring.length ≤ 64) : (b.stamp now).ring.length ≤ 64 := by
  unfold Belt.stamp
  split
  · simp; omega
  · simp; omega

/-- A forward step keeps the ring within 64. -/
theorem Belt.forwardStep_ring (b : Belt) (now : TimeBase) (h : b.ring.length ≤ 64) :
    (b.forwardStep now).ring.length ≤ 64 := by
  unfold Belt.forwardStep
  cases b.state <;> simp only
  · exact Nat.zero_le _
  · exact Belt.stamp_length _ _ h
  · exact Belt.stamp_length _ _ h
  · exact Nat.zero_le _

/-! ### Scan unit -/

/-- The converter arbiter changes the job, its time and what waits for it, and nothing when a job runs (R17). -/
theorem Scan.arbitrate_eq (c : Scan) :
    ∃ w j t sw aw, c.arbitrate = { c with sweep := w, job := j, jobTime := t, sampleWait := sw, auxWait := aw } ∧
      w.map Sweep.overrun = c.sweep.map Sweep.overrun := by
  have keep : ∃ w j t sw aw, c = { c with sweep := w, job := j, jobTime := t, sampleWait := sw, auxWait := aw } ∧
      w.map Sweep.overrun = c.sweep.map Sweep.overrun := ⟨c.sweep, c.job, c.jobTime, c.sampleWait, c.auxWait, rfl, rfl⟩
  unfold Scan.arbitrate
  split
  · exact keep
  · split
    · rename_i w h1
      split
      · split
        · exact ⟨c.sweep, _, _, _, c.auxWait, rfl, rfl⟩
        · exact ⟨c.sweep, _, _, c.sampleWait, _, rfl, rfl⟩
        · exact keep
      · exact ⟨_, _, _, c.sampleWait, c.auxWait, rfl, by rw [h1]; rfl⟩
    · exact ⟨c.sweep, _, _, _, c.auxWait, rfl, rfl⟩
    · exact ⟨c.sweep, _, _, c.sampleWait, _, rfl, rfl⟩
    · exact keep

/-- A running job goes on. -/
@[simp] theorem Scan.arbitrate_busy {c : Scan} {j : Job} (h : c.job = some j) : c.arbitrate = c := by
  unfold Scan.arbitrate; rw [h]

/-- A row trigger changes the scan unit and ROW-OVERRUN alone (R18, R23). -/
theorem State.trigger_eq (s : State) (row : Count) :
    (∃ c v, s.trigger row = { s with scan := c, counters := v }) ∧
      ∀ x : Counter, x ≠ .rowOverrun → (s.trigger row).counter x = s.counter x := by
  unfold State.trigger
  split
  · split
    · exact ⟨⟨_, s.counters, rfl⟩, fun _ _ => rfl⟩
    · exact ⟨⟨_, _, rfl⟩, fun x hx => State.counter_bump_of_ne _ hx⟩
  · exact ⟨⟨s.scan, s.counters, rfl⟩, fun _ _ => rfl⟩

/-- A SUPPLY value changes the band and its debounce alone (R27). -/
theorem Scan.takeSupply_eq (c : Scan) (o : Options) (v : Nat) :
    ∃ b t n, c.takeSupply o v = { c with band := b, candidate := t, bandRun := n } := by
  unfold Scan.takeSupply
  dsimp only
  split
  · exact ⟨c.band, c.candidate, _, rfl⟩
  · split
    · split
      · exact ⟨_, c.candidate, _, rfl⟩
      · exact ⟨c.band, c.candidate, _, rfl⟩
    · exact ⟨c.band, _, _, rfl⟩

/-! ### Piece former -/

/-- Offering a record keeps the queue within 4 (R45). -/
theorem State.offerPiece_length (s : State) (p : PieceRecord) (h : s.former.queue.length ≤ 4) :
    (s.offerPiece p).former.queue.length ≤ 4 := by
  unfold State.offerPiece
  split
  · simp; omega
  · exact h

/-- Offering a record changes the former's queue and PIECE-DROPPED alone. -/
theorem State.offerPiece_eq (s : State) (p : PieceRecord) :
    ∃ q v, s.offerPiece p = { s with former := { s.former with queue := q }, counters := v } := by
  unfold State.offerPiece
  split
  · exact ⟨_, s.counters, rfl⟩
  · exact ⟨s.former.queue, _, rfl⟩

/-- Making the offers of a row changes the former's queue and the records left, and PIECE-DROPPED, alone (R45). -/
theorem State.makeOffers_eq (s : State) (left : Nat) :
    (∃ q v, s.makeOffers left = { s with
      former := { s.former with queue := q, offers := s.former.offers.drop (s.former.offers.length - left) }
      counters := v }) ∧
      (s.former.queue.length ≤ 4 → (s.makeOffers left).former.queue.length ≤ 4) := by
  have offers : ∀ (rs : List PieceRecord) (t : State),
      (∃ q v, rs.foldl State.offerPiece t = { t with former := { t.former with queue := q }, counters := v }) ∧
        (t.former.queue.length ≤ 4 → (rs.foldl State.offerPiece t).former.queue.length ≤ 4) := by
    intro rs
    induction rs with
    | nil => exact fun t => ⟨⟨t.former.queue, t.counters, rfl⟩, id⟩
    | cons r rs ih =>
      intro t
      obtain ⟨q, v, h⟩ := t.offerPiece_eq r
      rw [List.foldl_cons]
      refine ⟨?_, fun hl => (ih _).2 (t.offerPiece_length r hl)⟩
      rw [h]
      exact (ih _).1
  exact offers _ { s with
    former := { s.former with offers := s.former.offers.drop (s.former.offers.length - left) } }

/-! ### Line link -/

/-- The samples of a start bit change the level and the two counts, and are counted as read ahead (R131, R139, log 22). -/
theorem Link.readSamples_eq (k : Link) (samples : BitVec 10) :
    ∃ v i d, k.readSamples samples = { k with rx := v, idle := i, dominant := d, ahead := k.ahead + 10 } := by
  have reads : ∀ (xs : List Nat) (k : Link), ∃ v i d,
      xs.foldl (fun k i => k.sample (samples.getLsbD i)) k = { k with rx := v, idle := i, dominant := d } := by
    intro xs
    induction xs with
    | nil => exact fun k => ⟨k.rx, k.idle, k.dominant, rfl⟩
    | cons x xs ih =>
      intro k
      obtain ⟨v, i, d, h⟩ := k.count_eq (if samples.getLsbD x then .recessive else .dominant) 1
      rw [List.foldl_cons, Link.sample, h]
      exact ih _
  exact reads _ _

/-- A link that holds no bits of a lost arbitration reads a frame from its samples (R133). -/
@[simp] theorem Link.reads_of_none {k : Link} (h : k.arbRead = []) (rx : List LineByte) : k.reads rx = rx := by
  cases rx <;> simp [Link.reads, h]

/-- Winning changes the state of an arbitration, to SENDING, and ends its running time alone (R133). -/
theorem Link.win_eq (k : Link) :
    (k.state = .arbitrating ∧ k.win = { k with state := .sending, arbTime := none }) ∨
      (k.state ≠ .arbitrating ∧ k.win = k) := by
  by_cases h : k.state = .arbitrating
  · exact .inl ⟨h, if_pos h⟩
  · exact .inr ⟨h, if_neg h⟩

/-- Every bit of a clean byte reads as it was sent: the start bit is no glitch. -/
@[simp] theorem isGlitch_cleanByte (b : Byte) :
    isGlitch (cleanByte b) = false := by
  revert b; decide +kernel

/-- The stop bit of a clean byte is good. -/
@[simp] theorem stopGood_cleanByte (b : Byte) :
    stopGood (cleanByte b) = true := by
  revert b; decide +kernel

/-- A clean byte reads as the byte sent. -/
@[simp] theorem dataByte_cleanByte (b : Byte) :
    dataByte (cleanByte b) = b := by
  revert b; decide +kernel

/-- A receiver that has the bytes it has read goes on with a good byte, or decides (R135, R136). -/
theorem receive_step {b : LineByte} (rest : List LineByte) {got : List Byte} (glitch : isGlitch b = false)
    (edge : got.isEmpty = true ∨ b.edge ≤ 192) (stop : stopGood b = true) :
    receive (b :: rest) got =
      match got ++ [dataByte b] with
      | arb :: kl :: body =>
        match kindLength (kindOf kl) with
        | none => .discarded .unknownKind
        | some n =>
          if lenOf kl ≠ n then .discarded .length
          else if body.length = n + 2 then
            if body.drop n = checkBytes (crc16 (arb :: kl :: body.take n)) then .valid arb kl (body.take n)
            else .discarded .crc
          else receive rest (got ++ [dataByte b])
      | _ => receive rest (got ++ [dataByte b]) := by
  have he : (!got.isEmpty && decide (192 < b.edge)) = false := by
    rcases edge with h | h
    · simp [h]
    · rw [decide_eq_false (by omega : ¬192 < b.edge), Bool.and_false]
  conv_lhs => unfold receive
  simp only [glitch, he, stop, Bool.false_eq_true, if_false, Bool.not_true]
  all_goals (rcases got ++ [dataByte b] with _ | ⟨arb, _ | ⟨kl, body⟩⟩ <;> rfl)

/-- The payload of a valid frame has the length of its kind (R129, R135). -/
theorem receive_valid_length {arb kl : Byte} {payload : List Byte} :
    ∀ {rx : List LineByte} {got : List Byte}, receive rx got = .valid arb kl payload →
      kindLength (kindOf kl) = some payload.length
  | [], got, h => by unfold receive at h; split at h <;> cases h
  | b :: rest, got, h => by
    unfold receive at h
    split at h
    · exact receive_valid_length h
    split at h
    · cases h
    split at h
    · cases h
    dsimp only at h
    split at h
    · split at h
      · cases h
      split at h
      · cases h
      split at h
      · split at h
        · obtain ⟨rfl, rfl, rfl⟩ := RxResult.valid.inj h
          rename_i hk _ hl _
          rw [hk, List.length_take, hl, Nat.min_eq_left (by omega)]
        · cases h
      · exact receive_valid_length h
    · exact receive_valid_length h

/-- A false start is passed over (R127). -/
theorem receive_glitch {b : LineByte} (glitch : isGlitch b = true) (after : List LineByte) :
    ∀ (before : List LineByte) (got : List Byte), receive (before ++ b :: after) got = receive (before ++ after) got
  | [], got => by
    conv_lhs => unfold receive
    simp [glitch]
  | x :: xs, got => by
    simp only [List.cons_append]
    unfold receive
    simp only [receive_glitch glitch after xs]

/-! ### Station block -/

/-- A replaced roster slot, with the mode evaluated when it is the cover station's (R168, R169). -/
theorem State.setRoster_eq (s : State) (n : Fin 16) (r : RosterSlot) :
    ∃ m, s.setRoster n r =
        { s with station := { s.station with roster := s.station.roster.set n r, mode := m } } ∧
      (s.opts.cover ≠ some n → m = s.station.mode) ∧ (s.opts.cover = some n → m = (s.setRoster n r).modeNow) := by
  unfold State.setRoster
  dsimp only
  split
  · rename_i h
    exact ⟨_, rfl, fun h' => absurd h h', fun _ => rfl⟩
  · rename_i h
    exact ⟨s.station.mode, rfl, fun _ => rfl, fun h' => absurd h' h⟩

/-- An accepted PIECE changes the receive queue, or RX-QUEUE-FULL, alone (R156). -/
theorem State.offerRecord_eq (s : State) (r : ReceiveRecord) :
    ∃ q v, s.offerRecord r = { s with rxQueue := q, counters := v } := by
  unfold State.offerRecord
  split
  · exact ⟨_, s.counters, rfl⟩
  · exact ⟨s.rxQueue, _, rfl⟩

/-! ### Reset logic -/

/-- A reset that is asserted leaves the outlets and the queues as after reset. -/
@[simp] theorem State.assertReset_outlets (s : State) (c : Causes) (a b : Bool) :
    (s.assertReset c a b).outlets = .afterReset := rfl

/-- The waiting commands stay. -/
@[simp] theorem State.assertReset_pending (s : State) (c : Causes) (a b : Bool) :
    (s.assertReset c a b).pending = s.pending := rfl

/-- The reset logic's state. -/
@[simp] theorem State.assertReset_rst (s : State) (c : Causes) (a b : Bool) :
    (s.assertReset c a b).rst = ⟨c, true, a, b, 0, 0⟩ := rfl

/-- A store with no write in progress is kept (R180). -/
@[simp] theorem Store.abandon_of_none {st : Store} (k : Nat) (h : st.writing = none) : st.abandon k = st := by
  unfold Store.abandon; rw [h]

/-- An abandoned write is over. -/
@[simp] theorem Store.abandon_writing (st : Store) (k : Nat) : (st.abandon k).writing = none := by
  unfold Store.abandon
  split
  · rfl
  · assumption

/-- The mark stays as it is (R180). -/
@[simp] theorem Store.abandon_mark (st : Store) (k : Nat) : (st.abandon k).mark = st.mark := by
  unfold Store.abandon
  split <;> rfl

/-- A reset ends, or nothing changes (R182). -/
theorem State.endReset_cases (s : State) (pins : ResetPins) :
    (s.rst.mayEnd = true ∧ s.endReset pins = s.afterReset pins) ∨ (s.rst.mayEnd = false ∧ s.endReset pins = s) := by
  unfold State.endReset
  cases s.rst.mayEnd <;> simp

end Sys2Proof.Machine
end

