-- ==== Sys2Proof/Laws/Former.lean ====
section
/-! SUPPORT. What the piece former's runs and groups are: the runs of a row's occupied cells, and the groups that share no holder. -/

namespace Sys2Proof.Machine

/-! ### Groups (R35) -/

/-- Widening a group keeps the runs of the row that are in it or share a holder with it (R35). -/
theorem mem_widenGroup {runs : List LaneRun} {holders : List (List LaneRun)} {g : List LaneRun} {r : LaneRun} :
    r ∈ widenGroup runs holders g ↔ r ∈ runs ∧ ∃ r' ∈ g, r = r' ∨ linked holders r r' = true := by
  simp [widenGroup]

/-- A group in a row: runs of the row that a chain of shared holders leads to, and no run of the row beside them shares a
holder with one of them (R35). -/
structure IsGroup (runs : List LaneRun) (holders : List (List LaneRun)) (g : List LaneRun) : Prop where
  within    : ∀ r ∈ g, r ∈ runs
  closed    : ∀ r ∈ runs, ∀ r' ∈ g, linked holders r r' = true → r ∈ g
  connected : ∀ part : LaneRun → Bool, (∃ r ∈ g, part r = true) → (∃ r ∈ g, part r = false) →
    ∃ r ∈ g, ∃ r' ∈ g, part r = true ∧ part r' = false ∧ linked holders r r' = true

/-- To share a holder is mutual (R35). -/
theorem linked_comm (holders : List (List LaneRun)) (r r' : LaneRun) : linked holders r r' = linked holders r' r := by
  simp [linked, Bool.and_comm]

/-- The runs that n widenings reach from a run of a group are runs of the group, and all of it or more than n. -/
theorem widenings_of_group {runs : List LaneRun} {holders : List (List LaneRun)} {g : List LaneRun} {r : LaneRun}
    (hg : IsGroup runs holders g) (hr : r ∈ g) (n : Nat) :
    (∀ x ∈ (widenGroup runs holders)^[n] [r], x ∈ g) ∧
      ((∀ x ∈ g, x ∈ (widenGroup runs holders)^[n] [r]) ∨ n < ((widenGroup runs holders)^[n] [r]).toFinset.card) := by
  induction n with
  | zero => exact ⟨by simpa using hr, .inr (by simp)⟩
  | succ n ih =>
    rw [Function.iterate_succ_apply']
    generalize (widenGroup runs holders)^[n] [r] = a at ih
    obtain ⟨sound, full⟩ := ih
    have grows : ∀ x ∈ a, x ∈ widenGroup runs holders a := fun x hx =>
      mem_widenGroup.2 ⟨hg.within x (sound x hx), x, hx, .inl rfl⟩
    refine ⟨fun x hx => ?_, ?_⟩
    · obtain ⟨hx, y, hy, rfl | hl⟩ := mem_widenGroup.1 hx
      · exact sound _ hy
      · exact hg.closed x hx y (sound y hy) hl
    · rcases full with full | many
      · exact .inl fun x hx => grows x (full x hx)
      · by_cases all : ∀ x ∈ g, x ∈ a
        · exact .inl fun x hx => grows x (all x hx)
        · push Not at all
          obtain ⟨x, hx, hxa⟩ := all
          have ne : ∃ y, y ∈ a := by
            rcases a with - | ⟨y, ys⟩
            · simp at many
            · exact ⟨y, by simp⟩
          obtain ⟨y, hy⟩ := ne
          obtain ⟨u, hu, v, hv, hua, hva, hl⟩ :=
            hg.connected (fun x => decide (x ∈ a)) ⟨y, sound y hy, by simpa⟩ ⟨x, hx, by simpa⟩
          simp only [decide_eq_true_eq, decide_eq_false_iff_not] at hua hva
          refine .inr (lt_of_le_of_lt (Nat.succ_le_of_lt many) (Finset.card_lt_card ?_))
          refine Finset.ssubset_iff_of_subset (fun z hz => ?_) |>.2 ⟨v, ?_, by simpa⟩
          · simpa using grows z (by simpa using hz)
          · simpa using mem_widenGroup.2 ⟨hg.within v hv, u, hua, .inr (by rwa [linked_comm])⟩

/-- The group of a run is the group that holds it, in lane order (R35). -/
theorem groupOf_eq {runs : List LaneRun} {holders : List (List LaneRun)} {g : List LaneRun} {r : LaneRun}
    (hg : IsGroup runs holders g) (hr : r ∈ g) : groupOf runs holders r = runs.filter fun x => decide (x ∈ g) := by
  have iterate : ∀ (xs a : List LaneRun), xs.foldl (fun g _ => widenGroup runs holders g) a =
      (widenGroup runs holders)^[xs.length] a := by
    intro xs
    induction xs with
    | nil => exact fun _ => rfl
    | cons x xs ih => exact fun a => ih _
  obtain ⟨sound, full⟩ := widenings_of_group hg hr runs.length
  rw [groupOf, iterate]
  have within : ((widenGroup runs holders)^[runs.length] [r]).toFinset ⊆ runs.toFinset := fun x hx => by
    simpa using hg.within x (sound x (by simpa using hx))
  have all := full.resolve_right fun h =>
    absurd (Finset.card_le_card within) (Nat.not_le.2 (lt_of_le_of_lt (List.toFinset_card_le _) h))
  obtain ⟨n, hn⟩ : ∃ n, runs.length = n + 1 :=
    Nat.exists_eq_succ_of_ne_zero (fun h => by simpa [List.length_eq_zero_iff.1 h] using hg.within r hr)
  rw [hn, Function.iterate_succ_apply'] at sound all ⊢
  exact List.filter_congr fun x hx => by
    rw [Bool.eq_iff_iff, decide_eq_true_iff]
    exact ⟨fun h => sound x (List.mem_filter.2 ⟨hx, h⟩), fun h => (List.mem_filter.1 (all x h)).2⟩

/-- The groups of a row: any groups of it that are each in lane order, stand in the order of their lowest lanes and hold
every run of the row (R35, R37). -/
theorem groupsOf_eq {runs : List LaneRun} {holders groups : List (List LaneRun)}
    (sorted : runs.Pairwise fun r r' => r.lo < r'.lo)
    (hg : ∀ g ∈ groups, g ≠ [] ∧ (g.Pairwise fun r r' => r.lo < r'.lo) ∧ IsGroup runs holders g)
    (order : groups.Pairwise fun g g' => ∀ r ∈ g.head?, ∀ r' ∈ g'.head?, r.lo < r'.lo)
    (every : ∀ r ∈ runs, ∃ g ∈ groups, r ∈ g) : groupsOf runs holders = groups := by
  have ext : ∀ {xs ys : List LaneRun}, (xs.Pairwise fun r r' => r.lo < r'.lo) → (ys.Pairwise fun r r' => r.lo < r'.lo) →
      (∀ x, x ∈ xs ↔ x ∈ ys) → xs = ys := by
    intro xs ys hx hy h
    refine List.Perm.eq_of_pairwise (fun a b _ _ h h' => absurd h (Nat.lt_asymm h')) hx hy ?_
    exact (List.perm_ext_iff_of_nodup (hx.imp fun h e => by simp [e] at h) (hy.imp fun h e => by simp [e] at h)).2 h
  have whole : ∀ g ∈ groups, ∀ r ∈ g, groupOf runs holders r = g := fun g hgg r hr => by
    obtain ⟨-, lanes, isG⟩ := hg g hgg
    rw [groupOf_eq isG hr]
    exact ext (sorted.filter _) lanes fun x => by simpa using isG.within x
  have heads : (runs.filter fun r => decide ((groupOf runs holders r).head? = some r)) = groups.filterMap List.head? := by
    refine ext (sorted.filter _) ?_ fun r => ?_
    · rw [List.pairwise_filterMap]
      exact order.imp fun h a ha b hb => h a ha b hb
    · simp only [List.mem_filter, List.mem_filterMap, decide_eq_true_eq]
      constructor
      · rintro ⟨hr, h⟩
        obtain ⟨g, hgg, hrg⟩ := every r hr
        exact ⟨g, hgg, by rwa [whole g hgg r hrg] at h⟩
      · rintro ⟨g, hgg, h⟩
        have hrg := List.mem_of_mem_head? h
        exact ⟨(hg g hgg).2.2.within r hrg, by rwa [whole g hgg r hrg]⟩
  rw [groupsOf, heads, List.map_filterMap]
  have kept : ∀ gs : List (List LaneRun), (∀ g ∈ gs, g ∈ groups) →
      gs.filterMap (fun g => g.head?.map (groupOf runs holders)) = gs := by
    intro gs
    induction gs with
    | nil => exact fun _ => rfl
    | cons g gs ih =>
      intro h
      have hgg := h g (by simp)
      obtain ⟨r, hr⟩ := List.exists_mem_of_ne_nil _ (hg g hgg).1
      rcases g with - | ⟨a, as⟩
      · simp at hr
      · rw [List.filterMap_cons_some (b := a :: as) (by simp [whole _ hgg a]), ih fun g hg => h g (by simp [hg])]
  exact kept groups fun _ h => h

/-! ### Runs (R34) -/

/-- The runs of the cells from lane n on, where f says which are occupied: with no run open, the separated runs that f covers,
and with a run open since lane a, that run first (R34). -/
theorem runsFrom_eq (f : Nat → Bool) (len : Nat) : ∀ (n : Nat) (runs : List LaneRun),
    (runs.Pairwise fun r r' => r.hi + 1 < r'.lo) → (∀ r ∈ runs, r.lo ≤ r.hi ∧ r.hi < n + len) →
    (∀ k, n ≤ k → (f k = true ↔ ∃ r ∈ runs, r.lo ≤ k ∧ k ≤ r.hi)) →
    ((∀ r ∈ runs, n ≤ r.lo) → runsFrom ((List.range' n len).map f) n none = runs) ∧
      ∀ a h rs, runs = ⟨a, h⟩ :: rs → a < n → n ≤ h + 1 →
        runsFrom ((List.range' n len).map f) n (some a) = runs := by
  induction len with
  | zero =>
    intro n runs _ range _
    refine ⟨fun low => ?_, fun a h rs e _ hn => ?_⟩
    · rcases runs with - | ⟨r, rs⟩
      · rfl
      · have := range r (by simp); have := low r (by simp); omega
    · subst e
      have := range ⟨a, h⟩ (by simp)
      rcases rs with - | ⟨r, rs⟩
      · simp [runsFrom] at this ⊢; omega
      · rename_i sep _
        have := range r (by simp); have := (List.pairwise_cons.1 sep).1 r (by simp); simp at this; omega
  | succ len ih =>
    intro n runs sep range cover
    have hn := cover n le_rfl
    have cover' : ∀ k, n + 1 ≤ k → (f k = true ↔ ∃ r ∈ runs, r.lo ≤ k ∧ k ≤ r.hi) := fun k hk => cover k (by omega)
    have range' : ∀ r ∈ runs, r.lo ≤ r.hi ∧ r.hi < n + 1 + len := fun r hr => by have := range r hr; omega
    refine ⟨fun low => ?_, fun a h rs e ha hh => ?_⟩
    · rw [List.range'_succ, List.map_cons]
      cases hf : f n
      · refine (ih (n + 1) runs sep range' cover').1 fun r hr => ?_
        have := low r hr
        by_contra hlt
        exact absurd (hn.2 ⟨r, hr, by omega, by have := range r hr; omega⟩) (by simp [hf])
      · obtain ⟨r, hr, hlo, hhi⟩ := hn.1 hf
        rcases runs with - | ⟨⟨a, h⟩, rs⟩
        · simp at hr
        · have first : r = ⟨a, h⟩ := by
            rcases List.mem_cons.1 hr with rfl | hr
            · rfl
            · have h1 := (List.pairwise_cons.1 sep).1 r hr
              have h2 := low ⟨a, h⟩ (by simp)
              have h3 := (range ⟨a, h⟩ (by simp)).1
              dsimp only at h1 h2 h3
              omega
          subst first
          have := low ⟨a, h⟩ (by simp)
          obtain rfl : a = n := by simp_all; omega
          exact (ih (a + 1) _ sep range' cover').2 a h rs rfl (by omega) (by simp at hhi; omega)
    · subst e
      rw [List.range'_succ, List.map_cons]
      have later : ∀ r ∈ rs, h + 1 < r.lo := fun r hr => (List.pairwise_cons.1 sep).1 r hr
      cases hf : f n
      · have : ¬n ≤ h := fun hle => absurd (hn.2 ⟨⟨a, h⟩, by simp, by simp; omega, hle⟩) (by simp [hf])
        obtain rfl : n = h + 1 := by omega
        show ⟨a, h + 1 - 1⟩ :: runsFrom ((List.range' (h + 1 + 1) len).map f) (h + 1 + 1) none = _
        rw [(ih (h + 1 + 1) rs (List.pairwise_cons.1 sep).2 (fun r hr => range' r (by simp [hr]))
          (fun k hk => (cover' k hk).trans ⟨?_, ?_⟩)).1 fun r hr => by have := later r hr; omega]
        · rfl
        · rintro ⟨r, hr, h1, h2⟩
          rcases List.mem_cons.1 hr with rfl | hr
          · simp at h2; omega
          · exact ⟨r, hr, h1, h2⟩
        · rintro ⟨r, hr, h⟩
          exact ⟨r, by simp [hr], h⟩
      · obtain ⟨r, hr, hlo, hhi⟩ := hn.1 hf
        have : n ≤ h := by
          rcases List.mem_cons.1 hr with rfl | hr
          · exact hhi
          · have := later r hr; omega
        exact (ih (n + 1) _ sep range' cover').2 a h rs rfl (by omega) (by omega)

/-- The runs of a row are the separated runs whose lanes are its occupied cells (R34). -/
theorem runsOf_eq {row : RowRecord} {runs : List LaneRun} (sep : runs.Pairwise fun r r' => r.hi + 1 < r'.lo)
    (range : ∀ r ∈ runs, r.lo ≤ r.hi ∧ r.hi < 32)
    (cover : ∀ n : Fin 32, row.cells[n].occupied = runs.any fun r => decide (r.lo ≤ n.val ∧ n.val ≤ r.hi)) :
    runsOf row = runs := by
  have h : row.cells.toList.map Cell.occupied =
      (List.range' 0 32).map fun k => runs.any fun r => decide (r.lo ≤ k ∧ k ≤ r.hi) := by
    refine List.ext_getElem (by simp) fun k h _ => ?_
    have hk : k < 32 := by simpa using h
    simpa using cover ⟨k, hk⟩
  rw [runsOf, h]
  exact (runsFrom_eq _ 32 0 runs sep (by simpa using range) (by simp)).1 (by simp)

end Sys2Proof.Machine
end

