-- ==== Sys2Proof/Laws/Outlets.lean ====
section
/-! SUPPORT. What the operations on lanes, windows and the gate do: the grant, open and close events, due passes, blocking, band drops. -/

namespace Sys2Proof.Machine

/-! ### Counting OPEN lanes -/

/-- The number of OPEN lanes depends on the lanes alone. -/
theorem Outlets.openCount_congr {o o' : Outlets} (h : o.lanes = o'.lanes) : o.openCount = o'.openCount := by
  simp only [Outlets.openCount, h]

/-- A count over a list without repeats changes at one place by what changes there. -/
theorem countP_update {α : Type} [DecidableEq α] (p q : α → Bool) (n : α) (h : ∀ x, x ≠ n → p x = q x) :
    ∀ {xs : List α}, xs.Nodup → n ∈ xs → xs.countP p + bit (q n) = xs.countP q + bit (p n)
  | x :: xs, hx, hn => by
    obtain ⟨hx1, hx2⟩ := List.nodup_cons.1 hx
    simp only [List.countP_cons]
    by_cases e : x = n
    · subst e
      have : xs.countP p = xs.countP q :=
        List.countP_congr fun y hy => by rw [h y fun e => hx1 (e ▸ hy)]
      rw [this]
      cases p x <;> cases q x <;> simp [bit]
    · have := countP_update p q n h hx2 ((List.mem_cons.1 hn).resolve_left fun e' => e e'.symm)
      rw [h x e]
      omega

/-- The number of OPEN lanes after one lane's record is replaced. -/
theorem Outlets.openCount_set (o : Outlets) (n : Fin 32) (l : Lane) :
    Outlets.openCount { o with lanes := o.lanes.set n l } + bit (decide (o.lanes[n].state = .opened)) =
      o.openCount + bit (decide (l.state = .opened)) := by
  have := countP_update (fun i : Fin 32 => decide ((o.lanes.set n l)[i].state = .opened))
    (fun i : Fin 32 => decide (o.lanes[i].state = .opened)) n
    (fun x hx => by
      have : n.val ≠ x.val := fun e => hx (Fin.ext e).symm
      simp [this])
    (List.nodup_finRange 32) (List.mem_finRange n)
  simpa [Outlets.openCount] using this

/-! ### Lanes -/

/-- A lane that a holder leaves was OPEN if it is OPEN. -/
theorem Lane.release_opened {l : Lane} (h : l.release.state = .opened) : l.state = .opened := by
  unfold Lane.release at h
  split at h
  · cases h
  · exact h

/-- A lane without the mark of a test lane, or with its holder gone, was OPEN if it is OPEN. -/
theorem Lane.endTest_opened {l : Lane} (h : l.endTest.state = .opened) : l.state = .opened := by
  unfold Lane.endTest at h
  split at h
  · exact Lane.release_opened h
  · exact h

/-- The lanes of a grant lose a holder; the others stay. -/
@[simp] theorem getElem_releaseLanes (g : LaneSet) (lanes : Vector Lane 32) (n : Fin 32) :
    (releaseLanes g lanes)[n] = if LaneSet.has g n then lanes[n].release else lanes[n] := by
  simp only [releaseLanes, Fin.getElem_fin, Vector.getElem_ofFn, Fin.eta]

/-- A list of windows that loses a lane keeps its length. -/
@[simp] theorem length_loseLane (n : Fin 32) (q : List Window) : (loseLane n q).length = q.length := by simp [loseLane]

/-! ### The grant (R100) -/

/-- The visited lanes lie in the span. -/
theorem mem_visitOrder {sp : Span} {n : Fin 32} (h : n ∈ visitOrder sp) : sp.first ≤ n.val ∧ n.val ≤ sp.last := by
  simp only [visitOrder, List.mem_filterMap] at h
  obtain ⟨m, _, hm⟩ := h
  split at hm
  · split at hm
    · cases hm; assumption
    · cases hm
  · cases hm

/-- What a visit of one lane does: an OPEN lane takes a holder, a CLOSED lane opens while there is room, and any other is
skipped. -/
theorem grantVisit_cases (now : TimeBase) (g : GrantResult) (n : Fin 32) :
    (g.lanes[n].state = .opened ∧ grantVisit now g n =
      { g with
        lanes := g.lanes.set n { g.lanes[n] with holders := g.lanes[n].holders + 1 }
        granted := LaneSet.add g.granted n }) ∨
    (g.lanes[n].state = .closed ∧ g.avail ≠ 0 ∧ grantVisit now g n =
      { g with
        lanes := g.lanes.set n (g.lanes[n].openAt now)
        avail := g.avail - 1
        granted := LaneSet.add g.granted n }) ∨
    ((g.lanes[n].state = .cooling ∨ g.avail = 0) ∧ grantVisit now g n = { g with skipped := true }) := by
  unfold grantVisit
  dsimp only
  split
  · exact .inl ⟨‹_›, rfl⟩
  · exact .inr (.inr ⟨.inl ‹_›, rfl⟩)
  · split
    · exact .inr (.inr ⟨.inr ‹_›, rfl⟩)
    · exact .inr (.inl ⟨‹_›, ‹_›, rfl⟩)

/-! ### What outlet work changes -/

/-- Outlet work changes the outlets, the gate, the report path and the counters alone. -/
structure OutletWork (s t : State) : Prop where
  eq : ∃ o g r v, t = { s with outlets := o, gate := g, table := { s.table with reports := r }, counters := v }

/-- Nothing done is outlet work. -/
theorem OutletWork.refl (s : State) : OutletWork s s := ⟨s.outlets, s.gate, s.table.reports, s.counters, rfl⟩

/-- Outlet work after outlet work. -/
theorem OutletWork.trans {s t u : State} (h : OutletWork s t) (h' : OutletWork t u) : OutletWork s u := by
  obtain ⟨o, g, r, v, rfl⟩ := h.eq
  obtain ⟨o', g', r', v', rfl⟩ := h'.eq
  exact ⟨o', g', r', v', rfl⟩

/-- Issuing a report is outlet work (R52). -/
theorem OutletWork.issue (s : State) (r : OutletReport) : OutletWork s (s.issue r) :=
  ⟨s.outlets, s.gate, _, s.counters, rfl⟩

/-- Counting is outlet work. -/
theorem OutletWork.bump (s : State) (c : Counter) : OutletWork s (s.bump c) := ⟨s.outlets, s.gate, s.table.reports, _, rfl⟩

/-- The open event of a window is outlet work (R94, R99, R114). -/
theorem State.openEvent_work (s : State) (L : Nat) (w : Window) : OutletWork s (s.openEvent L w) := by
  unfold State.openEvent
  split
  · unfold State.laneOpenEvent
    split
    · exact .issue ..
    · dsimp only
      split
      · exact .issue ..
      · exact ⟨_, s.gate, _, s.counters, rfl⟩
  · unfold State.gateOpenEvent
    split
    · exact .issue ..
    · exact ⟨_, _, _, s.counters, rfl⟩
  · exact .refl _

/-- The close event of a window is outlet work (R102, R117). -/
theorem State.closeEvent_work (s : State) (L : Nat) (w : Window) : OutletWork s (s.closeEvent L w) := by
  unfold State.closeEvent
  split
  · exact ⟨_, s.gate, _, s.counters, rfl⟩
  · unfold State.gateCloseEvent
    dsimp only
    split
    · split
      · exact ⟨s.outlets, _, _, _, rfl⟩
      · exact ⟨s.outlets, _, _, s.counters, rfl⟩
    · exact ⟨s.outlets, _, _, s.counters, rfl⟩
  · exact .refl _

/-- What each act of a front pass keeps, with the replacing of the open queue, the pass keeps. -/
theorem frontPass_keeps {P : State → Prop} {isDue : Window → Bool} {act : Window → State → State}
    (queue : ∀ s q, P s → P (s.setOpenQ q)) (acts : ∀ w s, P s → P (act w s)) :
    ∀ (q : List Window) (s : State), P s → P (frontPass isDue act q s)
  | [], s, h => queue s [] h
  | w :: rest, s, h => by
    unfold frontPass
    split
    · exact frontPass_keeps queue acts rest _ (acts w _ (queue s rest h))
    · exact queue s (w :: rest) h

/-- A front pass of outlet work is outlet work. -/
theorem frontPass_work {isDue : Window → Bool} {act : Window → State → State} (acts : ∀ w s, OutletWork s (act w s))
    (q : List Window) (s : State) : OutletWork s (frontPass isDue act q s) :=
  frontPass_keeps (P := OutletWork s) (fun t _ h => h.trans ⟨_, t.gate, t.table.reports, t.counters, rfl⟩)
    (fun w t h => h.trans (acts w t)) q s (.refl s)

/-- A fold of outlet work is outlet work. -/
theorem foldl_work {α : Type} {f : State → α → State} (acts : ∀ s x, OutletWork s (f s x)) :
    ∀ (xs : List α) (s : State), OutletWork s (xs.foldl f s)
  | [], s => .refl s
  | x :: xs, s => (acts s x).trans (foldl_work acts xs (f s x))

/-- The windows that close at a step and those that stay are the close queue's. -/
theorem splitClosing_perm (isDue fresh : Window → Bool) :
    ∀ q : List Window, ((splitClosing isDue fresh q).1 ++ (splitClosing isDue fresh q).2).Perm q
  | [] => .refl _
  | w :: rest => by
    have ih := splitClosing_perm isDue fresh rest
    unfold splitClosing
    split
    · dsimp only
      split
      · exact List.perm_middle.trans (ih.cons w)
      · exact ih.cons w
    · exact .refl _

/-- A resolution is outlet work (R98). -/
theorem State.resolve_work (L : Nat) (w : Window) (s : State) : OutletWork s (State.resolve L w s) := by
  unfold State.resolve
  split
  · exact .issue ..
  · split
    · exact .issue ..
    · exact s.openEvent_work L _

/-- The due passes are outlet work (R94). -/
theorem State.duePasses_work (s : State) (L : Nat) : OutletWork s (s.duePasses L) := by
  unfold State.duePasses
  dsimp only
  have h := frontPass_work (isDue := fun w => s.due L w.pOpen) (fun w s => s.openEvent_work L w) s.outlets.openQ s
  generalize frontPass (fun w => s.due L w.pOpen) (fun w s => s.openEvent L w) s.outlets.openQ s = t at h ⊢
  refine h.trans (OutletWork.trans ?_ (foldl_work (fun s w => s.closeEvent_work L w) _ _))
  exact ⟨_, t.gate, t.table.reports, t.counters, rfl⟩

/-- The hold-through test at a step is outlet work (R118). -/
theorem State.holdStep_work (s : State) (L : Nat) : OutletWork s (s.holdStep L) := by
  unfold State.holdStep
  split
  · exact ⟨s.outlets, _, s.table.reports, s.counters, rfl⟩
  · exact .refl _

/-- The outlets' work at a step (R94, R97, R98, R113, R118). -/
theorem State.outletStep_work (s : State) (became : Bool) : OutletWork s (s.outletStep became) := by
  unfold State.outletStep
  have h0 : OutletWork s { s with gate := s.gate.expire s.belt.count } := ⟨s.outlets, _, s.table.reports, s.counters, rfl⟩
  refine h0.trans ?_
  clear h0
  generalize he : ({ s with gate := s.gate.expire s.belt.count } : State) = e
  dsimp only
  split
  · have h : ∀ t : State, OutletWork e t → OutletWork e (if t.blocked = true then t else t.holdStep e.lead) := by
      intro t ht
      split
      · exact ht
      · exact ht.trans (t.holdStep_work _)
    refine h _ ?_
    split
    · exact frontPass_work (State.resolve_work _) _ e
    · split
      · exact frontPass_work (fun w s => .issue s _) _ e
      · exact e.duePasses_work _
  · exact .refl _

/-! ### Blocking (R96, R119) and band drops (R105) -/

/-- The beginning of blocking is outlet work, and leaves the close queue empty. -/
theorem State.beginBlocking_work (s : State) : OutletWork s s.beginBlocking := by
  unfold State.beginBlocking
  dsimp only
  have h : OutletWork s (s.outlets.closeQ.foldl State.cutWindow (s.setCloseQ [])) := by
    refine OutletWork.trans (t := s.setCloseQ []) ⟨_, s.gate, s.table.reports, s.counters, rfl⟩ ?_
    exact foldl_work (fun s w => ⟨_, _, _, s.counters, rfl⟩) _ _
  split
  · exact h.trans ⟨State.outlets _, _, _, State.counters _, rfl⟩
  · exact h

/-- The latest opened lane is OPEN. -/
theorem State.lastOpened_opened {s : State} {n : Fin 32} (h : s.lastOpened = some n) : s.outlets.lanes[n].state = .opened := by
  have := pickBest_mem h
  simpa using (List.mem_filter.1 this).2

/-- There is a latest opened lane unless none is OPEN. -/
theorem State.lastOpened_none {s : State} : s.lastOpened = none ↔ s.outlets.openCount = 0 := by
  simp [State.lastOpened, Outlets.openCount, List.countP_eq_zero, List.filter_eq_nil_iff]

/-- Closing excess lanes is outlet work (R105). -/
theorem closeExcess_work : ∀ (k : Nat) (s : State), OutletWork s (closeExcess k s)
  | 0, s => .refl s
  | k + 1, s => by
    unfold closeExcess
    split
    · exact OutletWork.trans ⟨_, s.gate, s.table.reports, _, rfl⟩ (closeExcess_work k _)
    · exact .refl s

/-! ### The gate -/

/-- A gate that is called out commands the divert (R113, R114). -/
@[simp] theorem Gate.callOut_commanded (g : Gate) (count : Count) (L : Nat) : (g.callOut count L).state.commanded = true := by
  unfold Gate.callOut; dsimp only; split <;> rfl

/-- A gate that is sent back does not (R117, R119). -/
@[simp] theorem Gate.sendBack_commanded (g : Gate) (count : Count) (L : Nat) :
    (g.sendBack count L).state.commanded = false := by
  unfold Gate.sendBack; dsimp only; split <;> rfl

/-- Neither changes the holders. -/
@[simp] theorem Gate.callOut_holders (g : Gate) (count : Count) (L : Nat) : (g.callOut count L).holders = g.holders := by
  unfold Gate.callOut; dsimp only; split <;> rfl

/-- The end of an interval changes the interval and the history alone. -/
theorem Gate.endInterval_eq (g : Gate) (last : Count) :
    g.endInterval last = { g with current := none, history := (g.endInterval last).history } := by
  unfold Gate.endInterval
  cases h : g.current with
  | some b => rfl
  | none => rcases g with ⟨⟩; simp_all

/-- Sending the gate back keeps the holders. -/
@[simp] theorem Gate.sendBack_holders (g : Gate) (count : Count) (L : Nat) : (g.sendBack count L).holders = g.holders := by
  unfold Gate.sendBack
  dsimp only
  rw [Gate.endInterval_eq]
  split <;> rfl

/-- The history keeps at most four intervals (R113). -/
theorem Gate.endInterval_history (g : Gate) (last : Count) (h : g.history.length ≤ 4) :
    (g.endInterval last).history.length ≤ 4 := by
  unfold Gate.endInterval
  split
  · split <;> simp <;> omega
  · exact h

end Sys2Proof.Machine
end

