-- ==== Sys2Proof/Laws/Table.lean ====
section
/-! SUPPORT. What the operations of the track table do: the arbiter, settlement, decisions, correlation and the requests. -/

namespace Sys2Proof.Machine

/-! ### The arbiter (R51) -/

/-- A request that is taken is the one in flight or the front one of a claimant that may be taken, and no request is in flight
afterwards. -/
theorem State.takeRequest_cases {s t : State} {c : Claimant} {test : TableRequest → Bool} {f : Flight}
    (h : s.takeRequest c test = some (f, t)) :
    test f.request = true ∧
      ((s.table.inFlight = some f ∧ t = s.setFlight none) ∨
        (s.table.inFlight = none ∧ s.mayTake c = true ∧ s.frontRequest c = some f.request ∧ f.reading = none ∧
          t = s.popRequest c)) := by
  unfold State.takeRequest at h
  split at h
  · split at h
    · cases h; exact ⟨‹_›, .inl ⟨‹_›, rfl⟩⟩
    · cases h
  · split at h
    · split at h
      · split at h
        · cases h; exact ⟨‹_›, .inr ⟨‹_›, ‹_›, ‹_›, rfl, rfl⟩⟩
        · cases h
      · cases h
    · cases h

/-- A request is served by the readings made ahead of it or those of now, or nothing happens. -/
theorem State.request_cases (s : State) (c : Claimant) (test : TableRequest → Bool) :
    (s.takeRequest c test = none ∧ s.request c test = s) ∨
      ∃ f t, s.takeRequest c test = some (f, t) ∧
        s.request c test = t.serve (f.reading.getD t.reading) f.request := by
  unfold State.request
  cases h : s.takeRequest c test with
  | none => exact .inl ⟨rfl, rfl⟩
  | some p => exact .inr ⟨p.1, p.2, rfl, rfl⟩

/-- A record that is taken leaves its own queue alone, and the marks of a tie. -/
theorem State.popRequest_eq (s : State) (c : Claimant) :
    ∃ q x r, s.popRequest c = { s with
      former := { s.former with queue := q }, rxQueue := x, table := { s.table with reports := r, tied := .none } } := by
  cases c
  · exact ⟨s.former.queue, s.rxQueue, _, rfl⟩
  · exact ⟨_, s.rxQueue, s.table.reports, rfl⟩
  · exact ⟨s.former.queue, _, s.table.reports, rfl⟩
  · exact ⟨s.former.queue, s.rxQueue, s.table.reports, rfl⟩

/-- What is read ahead of an edge changes the claimants' queues, the request in flight and the marks of a tie alone (R86). -/
theorem State.readAhead_eq (s : State) (between : Option Claimant) :
    ∃ q x r f c, s.readAhead between = { s with
      former := { s.former with queue := q }
      rxQueue := x
      table := { s.table with reports := r, inFlight := f, tied := c } } := by
  have keep : ∃ q x r f c, s = { s with
      former := { s.former with queue := q }
      rxQueue := x
      table := { s.table with reports := r, inFlight := f, tied := c } } :=
    ⟨s.former.queue, s.rxQueue, s.table.reports, s.table.inFlight, s.table.tied, rfl⟩
  unfold State.readAhead State.callAhead State.startRequest
  split
  · split
    · split
      · exact ⟨s.former.queue, s.rxQueue, s.table.reports, _, s.table.tied, rfl⟩
      · exact keep
    · exact keep
    · split
      · split
        · obtain ⟨q, x, r, h⟩ := s.popRequest_eq ‹_›
          rw [h]
          exact ⟨q, x, r, _, .none, rfl⟩
        · exact keep
      · exact keep
  · exact keep

/-- The belt is as it was when the edge is taken. -/
@[simp] theorem State.readAhead_belt (s : State) (between : Option Claimant) : (s.readAhead between).belt = s.belt := by
  obtain ⟨_, _, _, _, _, h⟩ := s.readAhead_eq between
  rw [h]

/-- The options are as they were. -/
@[simp] theorem State.readAhead_opts (s : State) (between : Option Claimant) : (s.readAhead between).opts = s.opts := by
  obtain ⟨_, _, _, _, _, h⟩ := s.readAhead_eq between
  rw [h]

/-- The outlets are as they were. -/
@[simp] theorem State.readAhead_outlets (s : State) (between : Option Claimant) :
    (s.readAhead between).outlets = s.outlets := by
  obtain ⟨_, _, _, _, _, h⟩ := s.readAhead_eq between
  rw [h]

/-! ### What table work changes -/

/-- Serving a request changes the slots and the escape watch list, the open queue, the tag counter, the link and the counters
alone. -/
structure TableWork (s t : State) : Prop where
  eq : ∃ sl es q g k v, t = { s with
    table := { s.table with slots := sl, escapes := es }
    outlets := { s.outlets with openQ := q }
    former := { s.former with tag := g }
    link := k
    counters := v }

/-- Nothing done is table work. -/
theorem TableWork.refl (s : State) : TableWork s s :=
  ⟨s.table.slots, s.table.escapes, s.outlets.openQ, s.former.tag, s.link, s.counters, rfl⟩

/-- Table work after table work. -/
theorem TableWork.trans {s t u : State} (h : TableWork s t) (h' : TableWork t u) : TableWork s u := by
  obtain ⟨_, _, _, _, _, _, rfl⟩ := h.eq
  obtain ⟨a, b, c, d, e, f, rfl⟩ := h'.eq
  exact ⟨a, b, c, d, e, f, rfl⟩

/-- Link work is table work. -/
theorem LinkWork.table {s t : State} (h : LinkWork s t) : TableWork s t := by
  obtain ⟨k, v, rfl⟩ := h.eq
  exact ⟨s.table.slots, s.table.escapes, s.outlets.openQ, s.former.tag, k, v, rfl⟩

/-- Counting is table work. -/
theorem TableWork.bump (s : State) (c : Counter) : TableWork s (s.bump c) :=
  ⟨s.table.slots, s.table.escapes, s.outlets.openQ, s.former.tag, s.link, _, rfl⟩

/-- A slot's new content is table work. -/
theorem TableWork.setSlot (s : State) (i : Fin 128) (e : Option Entry) : TableWork s (s.setSlot i e) :=
  ⟨_, s.table.escapes, s.outlets.openQ, s.former.tag, s.link, s.counters, rfl⟩

/-- A new open queue is table work. -/
theorem TableWork.setOpenQ (s : State) (q : List Window) : TableWork s (s.setOpenQ q) :=
  ⟨s.table.slots, s.table.escapes, q, s.former.tag, s.link, s.counters, rfl⟩

/-- A new escape watch list is table work. -/
theorem TableWork.setEscapes (s : State) (es : List EscapeRecord) :
    TableWork s { s with table := { s.table with escapes := es } } :=
  ⟨s.table.slots, es, s.outlets.openQ, s.former.tag, s.link, s.counters, rfl⟩

/-- A drawn tag is table work. -/
theorem TableWork.drawTag (s : State) : TableWork s s.drawTag :=
  ⟨s.table.slots, s.table.escapes, s.outlets.openQ, _, s.link, s.counters, rfl⟩

/-- The counting of a settlement (R66). -/
theorem State.countVerdict_cases (s : State) (v : Verdict) (cause : Option DenialCause) (c : PieceClass) :
    (∃ k, v = .denied ∧ cause = some k ∧ s.countVerdict v cause c = (s.bump (.verdict v c)).bump k.counter) ∨
      ((v ≠ .denied ∨ cause = none) ∧ s.countVerdict v cause c = s.bump (.verdict v c)) := by
  cases cause with
  | none => right; cases v <;> exact ⟨.inr rfl, rfl⟩
  | some k =>
    cases v with
    | denied => exact .inl ⟨k, rfl, rfl, rfl⟩
    | passed => exact .inr ⟨.inl (by decide), rfl⟩
    | ejected => exact .inr ⟨.inl (by decide), rfl⟩
    | removed => exact .inr ⟨.inl (by decide), rfl⟩
    | trimmed => exact .inr ⟨.inl (by decide), rfl⟩
    | late => exact .inr ⟨.inl (by decide), rfl⟩
    | carried => exact .inr ⟨.inl (by decide), rfl⟩

/-- A settlement is table work (R66). -/
theorem State.settlePiece_work (s : State) (cause : Option DenialCause) (n : PieceNotice) :
    TableWork s (s.settlePiece cause n) := by
  unfold State.settlePiece
  refine TableWork.trans ?_ (State.requestPiece_work _ n).table
  rcases s.countVerdict_cases n.verdict cause n.cls with ⟨k, _, _, h⟩ | ⟨_, h⟩
  · rw [h]; exact (TableWork.bump ..).trans (.bump ..)
  · rw [h]; exact .bump ..

/-- An entry's settlement is table work. -/
theorem State.settleEntry_work (s : State) (i : Fin 128) (e : Entry) (v : Verdict) (cause : Option DenialCause) :
    TableWork s (s.settleEntry i e v cause) :=
  (s.settlePiece_work cause _).trans (.setSlot ..)

/-- A decision settles the entry, makes it PASSING, or makes it DUE with a window in the open queue (R61). -/
theorem State.decideEntry_cases (s : State) (rd : Reading) (i : Fin 128) (e : Entry) :
    (∃ v cause d, s.decision rd i e = .settle v cause d ∧
      s.decideEntry rd i e = s.settleEntry i { e with deadline := none, decision := some d } v cause) ∨
    (∃ d, s.decision rd i e = .passage d ∧ s.decideEntry rd i e = s.setSlot i (some { e with
      state := .passing, deadline := some (shift e.trail (s.opts.o : Int)), decision := some d })) ∨
    (∃ d w, s.decision rd i e = .window d w ∧ s.decideEntry rd i e =
      (s.setSlot i (some { e with state := .due, deadline := none, decision := some d })).queueWindow w) := by
  unfold State.decideEntry
  split
  · rename_i v cause d h; exact .inl ⟨v, cause, d, h, rfl⟩
  · rename_i d h; exact .inr (.inl ⟨d, h, rfl⟩)
  · rename_i d w h; exact .inr (.inr ⟨d, w, h, rfl⟩)

/-- A decision is table work. -/
theorem State.decideEntry_work (s : State) (rd : Reading) (i : Fin 128) (e : Entry) : TableWork s (s.decideEntry rd i e) := by
  rcases s.decideEntry_cases rd i e with ⟨v, cause, d, _, h⟩ | ⟨d, _, h⟩ | ⟨d, w, _, h⟩ <;> rw [h]
  · exact s.settleEntry_work ..
  · exact .setSlot ..
  · exact (TableWork.setSlot ..).trans (.setOpenQ ..)

/-- A decision gives a window only while the open queue has room (R91). -/
theorem State.decision_window {s : State} {rd : Reading} {i : Fin 128} {e : Entry} {d : Decision} {w : Window}
    (h : s.decision rd i e = .window d w) : s.outlets.openQ.length < 32 := by
  by_contra hl
  unfold State.decision at h
  dsimp only at h
  split at h
  · rw [if_pos (.inr (Nat.not_lt.1 hl))] at h; cases h
  · split at h <;> cases h

/-! ### Free slots -/

/-- The lowest FREE slot is FREE (R48). -/
theorem State.freeSlot_free {s : State} {i : Fin 128} (h : s.freeSlot = some i) : s.table.slots[i] = none := by
  simpa using List.find?_some h

/-- There is a FREE slot unless every slot is in use. -/
theorem State.freeSlot_none {s : State} : s.freeSlot = none ↔ ∀ i : Fin 128, s.table.slots[i].isSome = true := by
  simp [State.freeSlot, List.find?_eq_none, Option.isSome_iff_ne_none]

/-! ### The requests -/

/-- A report of four leaves a list of at most three (R50). -/
theorem length_joinReport (rs : List PeerReport) (r : PeerReport) (h : rs.length ≤ 3) : (joinReport rs r).length ≤ 3 := by
  unfold joinReport
  split
  · simp; omega
  · split
    · rename_i p k hk
      have hm := pickBest_mem hk
      obtain ⟨hk1, -⟩ := List.mem_zipIdx' hm
      rw [List.length_eraseIdx_of_lt hk1]
      simp; omega
    · rename_i hk
      simp at hk

/-- Watching an escape is table work, and the list keeps at most 32 (R69). -/
theorem State.watch_work (s : State) (r : EscapeRecord) :
    TableWork s (s.watch r) ∧ (s.table.escapes.length ≤ 32 → (s.watch r).table.escapes.length ≤ 32) := by
  unfold State.watch
  split
  · exact ⟨.setEscapes .., fun _ => by simp only [joinEscape, length_insertBehind]; omega⟩
  · split
    · rename_i front rest h
      split
      · refine ⟨(TableWork.setEscapes ..).trans (.bump ..), fun hl => ?_⟩
        rw [h] at hl
        simpa [joinEscape] using hl
      · exact ⟨.bump .., fun hl => by simpa using hl⟩
    · exact ⟨.bump .., fun hl => by simpa using hl⟩

/-- Expecting a piece is table work (R60). -/
theorem State.expect_work (s : State) (rd : Reading) (r : PeerReport) (h : Nat) : TableWork s (s.expect rd r h) := by
  unfold State.expect
  split
  · exact .bump ..
  · split
    · exact .setSlot ..
    · dsimp only
      split
      · exact (TableWork.drawTag s).trans (State.decideEntry_work ..)
      · exact (TableWork.drawTag s).trans (.setSlot ..)

/-- A report that joins an entry is table work (R59). -/
theorem State.joinEntry_work (s : State) (i : Fin 128) (r : PeerReport) : TableWork s (s.joinEntry i r) := by
  unfold State.joinEntry
  split
  · dsimp only
    split
    · exact .setSlot ..
    · exact (TableWork.setSlot ..).trans (.bump ..)
  · exact .refl _

/-- Serving a receive record is table work (R57). -/
theorem State.serveReceived_work (s : State) (rd : Reading) (r : ReceiveRecord) : TableWork s (s.serveReceived rd r) := by
  have hw : ∀ x : EscapeRecord, TableWork s (if s.opts.scan = true then s.watch x else s) := by
    intro x
    split
    · exact (s.watch_work x).1
    · exact .refl _
  have hr : ∀ (p : PeerReport) (h : Nat), TableWork s
      (match chooseMatch (s.reportMatches p h) with
        | some m => s.joinEntry (Fin.ofNat 128 m.place) p
        | none => s.expect rd p h) := by
    intro p h
    split
    · exact s.joinEntry_work ..
    · exact s.expect_work ..
  unfold State.serveReceived
  dsimp only
  split
  · exact .bump ..
  · split
    · exact hw _
    · exact hw _
    · exact hw _
    · exact hr ..
    · exact hr ..
    · exact hr ..
    · exact hr ..

/-- Serving a local piece is table work (R54, R55, R56). -/
theorem State.serveLocal_work (s : State) (rd : Reading) (p : PieceRecord) : TableWork s (s.serveLocal rd p) := by
  unfold State.serveLocal
  split
  · dsimp only
    split
    · exact s.decideEntry_work ..
    · exact .refl _
  · split
    · exact (TableWork.bump ..).trans (State.settlePiece_work ..)
    · split
      · split
        · exact ((TableWork.setEscapes ..).trans (State.requestEscape_work ..).table).trans (State.decideEntry_work ..)
        · exact s.decideEntry_work ..
      · exact s.decideEntry_work ..

/-- Serving the deadline request is table work (R62 to R65, R70). -/
theorem State.serveDeadline_work (s : State) (rd : Reading) : TableWork s (s.serveDeadline rd) := by
  unfold State.serveDeadline
  split
  · exact .setEscapes ..
  · split
    · split
      · unfold State.serveExpected
        split
        · exact (TableWork.bump ..).trans (.setSlot ..)
        · exact s.decideEntry_work ..
      · unfold State.servePassing
        split
        · exact s.settleEntry_work ..
        · exact s.settleEntry_work ..
    · exact .refl _
  · exact .refl _

/-- Serving a report is table work (R52). -/
theorem State.serveReport_work (s : State) (r : OutletReport) : TableWork s (s.serveReport r) := by
  unfold State.serveReport
  split
  · split
    · exact .setSlot ..
    · exact .refl _
  · split
    · exact s.settleEntry_work ..
    · exact .refl _

/-- Serving any request is table work. -/
theorem State.serve_work (s : State) (rd : Reading) (r : TableRequest) : TableWork s (s.serve rd r) := by
  cases r
  · exact s.serveReport_work _
  · exact s.serveLocal_work ..
  · exact s.serveReceived_work ..
  · exact s.serveDeadline_work _

end Sys2Proof.Machine
end

