-- ==== Sys2Proof/WellFormed.lean ====
section
/-! DEFINITION. Well-formed commands: the operands the environment can give. An ill-formed command has a meaning too, since exec is total. -/

namespace Sys2Proof

open Machine

/-- The bytes that follow the first begin after the stop bit before them is decided, at sample 153 (R127, R128). -/
def edgesInOrder (rx : List LineByte) : Bool := (rx.drop 1).all fun b => decide (154 ≤ b.edge)

/-- What is read of a frame begins with a true start bit (R127, R131). -/
def beginsWell (rx : List LineByte) : Bool :=
  match rx with
  | b :: _ => !isGlitch b
  | [] => false

/-- What was read ends a reception with a discard (R135). -/
def endsInDiscard (rx : List LineByte) : Bool :=
  match receive rx [] with
  | .discarded _ => true
  | .incomplete | .valid .. => false

/-- What was read ends a reception with a valid frame (R136). -/
def endsValid (rx : List LineByte) : Bool :=
  match receive rx [] with
  | .valid .. => true
  | .incomplete | .discarded _ => false

/-- The bits of the longest frame (R129). -/
def longestFrame : Nat := 180

/-- The operands of a command are ones its environment can give. -/
def Instr.wellFormed : Instr → Bool
  | .frameDiscard _ rx => beginsWell rx && edgesInOrder rx && endsInDiscard rx
  | .validFrame _ rx => beginsWell rx && edgesInOrder rx && endsValid rx
  | .startEdge _ samples => !samples.getLsbD 0
  | .bitError _ k => decide (k < longestFrame)
  | .unknownCommandCode _ code => unknownCode code
  | .encoderEdge .. | .stepSilenceExpiry .. | .sweepComplete .. | .auxiliaryTick .. | .auxiliaryConversionComplete ..
  | .sampleComplete .. | .rowRecord .. | .opened .. | .settled .. | .localPiece .. | .receiveRecord ..
  | .deadlineRequest .. | .maxOnTrip .. | .coolingEnd .. | .testLane .. | .testLaneEnd .. | .switchEvent ..
  | .travelTimeout .. | .busFree .. | .arbitrationLost .. | .latchCount .. | .breakEnd .. | .transmitCompletion ..
  | .lineFault .. | .lineFaultEnd .. | .joiningTimerExpiry .. | .helloTimerExpiry .. | .quiet .. | .absent ..
  | .readStatus .. | .readCause .. | .readRoster .. | .readEntry .. | .readEntryDeferred .. | .readCounters ..
  | .readAndClearCounters .. | .readOptions .. | .writeOptions .. | .optionWriteCompleted .. | .start .. | .pause ..
  | .resume .. | .reset .. | .sample .. | .powerOn .. | .coreSupplyDrop .. | .resetPin .. | .resetEnd ..
  | .supplyRise .. | .resetPinHigh .. => true

end Sys2Proof
end

