-- ==== Sys2Proof/Tests/Slice0.lean ====
section
/-! SUPPORT. The model's own tests: ill-formed commands that WellFormed refuses, the manual's worked sequences on single steps, and a witness for the hypotheses of every statement. -/

namespace Sys2Proof.Tests

-- The tests are checked one after another: side by side, each waits for the one before it on a stack of its own.
set_option Elab.async false

open Machine

/-! ### Small states -/

/-- A block with margins, masks and limits, as the worked sequences use them. -/
def opt : Options :=
  { Options.invalid with
    s := 2900, kind := .lanes, scan := true, o := 600, d := 6000, pre := 4, post := 6, wMax := 200, r := 2, p := 1
    laneMargin := 1, peerWiden := 1, eject := 0b000011, fallback := 0b001000, passive := 0b000100, areaMin := 10
    areaMax := 3000, tMetal := 40, tCell := 60, coilFloor := 500, faultFall := 600, faultRise := 700, lowFall := 800
    lowRise := 900, bLow := 8, bNormal := 12, tOnMax := 15, listen := 3000, hb := 12, hd := 8, rate := 1 }

/-- The options of a GATE station (section 7.11). -/
def optGate : Options := { opt with kind := .gate, d := 35000 }

/-- A station 5 that is RUNNING on a stopped belt with the band NORMAL. -/
def run : State :=
  { State.reset with
    opts := opt
    valid := true
    scan := { Scan.afterReset with band := .normal }
    station := { Station.afterReset 5 .running none with hello := some 0 } }

/-- The same with the belt MOVING at T64 = 21,333. -/
def moving : State :=
  { run with belt := { Belt.afterReset false false with state := .moving, t64 := 21333, silence := some 0, count := 1000 } }

/-- The same in another station state. -/
def inState (st : StationState) : State := { run with station := { run.station with state := st } }

/-- The station with a link. -/
def withLink (k : Link) : State := { run with link := k }

/-- The next state of a command, or the state itself. -/
def after (c : Instr) (s : State) : State :=
  match exec c s with
  | .next t => t
  | .fault _ | .refused _ => s

/-- A transaction with no time before it. -/
def say (args : List Byte) : Transaction := ⟨[], 0, args⟩

/-- A frame that a station sends on a clean line. -/
def heard (arb : Byte) (b : Body) (linepos : Count) : List LineByte := cleanFrame ⟨arb, b.kindLen, b.payload linepos⟩

/-- A link that receives and has latched. -/
def receiving : Link := { Link.afterReset with state := .receiving, latch := some 73020 }

/-- JET's HELLO (section 9.8). -/
def jet : HelloFields := ⟨4100, 300, .lanes, false, 0, .running, .moving, .available, .assisted⟩

/-- FERRO's HELLO. -/
def ferro : HelloFields := ⟨1200, 100, .lanes, true, 0, .running, .moving, .available, .assisted⟩

/-- FERRO's PIECE of tag 904 (section 4.12). -/
def piece904 : PieceNotice := ⟨904, .clear, 500130, 15, 3, 6, 4, 40, .nonferrous, .passed⟩

/-- A record of a local piece of class FERROUS (section 5.9). -/
def record : PieceRecord := ⟨2210, 74641, 74668, 14, 18, 16, 70, 70, 700, 100, .ferrous, .clear⟩

/-- A window of slot 3. -/
def win : Window := ⟨3, 980, 1100, .clear, some ⟨3, 8, 5⟩, 0⟩

/-- An entry with a decision. -/
def entry : Entry := { record.entry with state := .due, decision := some ⟨.ferrous, true, some (980, 1100), 0, .clear⟩ }

/-- A state whose slot 3 holds an entry. -/
def withEntry (e : Entry) : State := run.setSlot 3 (some e)

/-- A row with no occupied cell. -/
def emptyRow : RowRecord := ⟨4009, Vector.replicate 32 ⟨0, 0, false, false⟩, false, false, false⟩

/-- A row whose occupied cells are lanes 9 and 10 (section 3.11, row 4,001). -/
def row4001 : RowRecord :=
  { emptyRow with
    row := 4001
    cells := Vector.ofFn fun n =>
      if n = 9 then ⟨-150, 40, true, true⟩ else if n = 10 then ⟨-210, 60, true, true⟩ else ⟨0, 0, false, false⟩ }

/-- Piece A of section 3.11 after row 4,007. -/
def pieceA : OpenPiece :=
  ⟨417, 4001, 4007, 13, 12, -1755, 490, 147, 9, 15, 4, 0, false, false, false, false, [⟨11, 12⟩]⟩

/-- EDDY's gate as it moves out, with W1 admitted (section 7.11, count 79,895). -/
def gateOut : State :=
  { moving with
    opts := optGate
    belt := { moving.belt with count := 79915 }
    gate := { Gate.afterReset .gate true true with state := .movingOut, holders := 1, travel := some 6700, current := some 80000 }
    outlets := { Outlets.afterReset with closeQ := [{ win with span := none }] } }

/-- A lane that has been OPEN since time 0. -/
def openLane : Lane := ⟨.opened, 1, some 0, none, none⟩

/-- A HELLO of the station itself in its queue. -/
def ownHello : Notice := helloNotice 5 run.helloNow

/-! ### Ill-formed commands are refused -/

/-- A glitch where a frame should begin. -/
def glitch : LineByte := ⟨0, Vector.replicate 10 7⟩

/-- A byte whose stop bit reads dominant. -/
def badStop : LineByte := ⟨160, Vector.replicate 10 0⟩

theorem test_wf_discard_needs_true_start : (Instr.frameDiscard [] [glitch, badStop]).wellFormed = false := by decide
theorem test_wf_discard_needs_edges_in_order :
    (Instr.frameDiscard [] [cleanByte 0x25, { badStop with edge := 100 }]).wellFormed = false := by decide +kernel
theorem test_wf_discard_needs_an_error : (Instr.frameDiscard [] (heard 0x25 (.hello jet) 0)).wellFormed = false := by
  decide +kernel
theorem test_wf_discard_accepts : (Instr.frameDiscard [] [cleanByte 0x25, badStop]).wellFormed = true := by decide +kernel
theorem test_wf_valid_needs_whole_frame : (Instr.validFrame [] [cleanByte 0x25]).wellFormed = false := by decide +kernel
theorem test_wf_valid_accepts : (Instr.validFrame [] (heard 0x25 (.hello jet) 0)).wellFormed = true := by decide +kernel
theorem test_wf_start_edge_is_dominant : (Instr.startEdge [] 1).wellFormed = false := by decide
theorem test_wf_bit_of_longest_frame : (Instr.bitError [] 180).wellFormed = false := by decide
theorem test_wf_unknown_code_is_unknown : (Instr.unknownCommandCode (say []) 0x13).wellFormed = false := by decide
theorem test_wf_code_zero_is_fetch : (Instr.unknownCommandCode (say []) 0x00).wellFormed = false := by decide

/-! ### The manual's worked figures -/

/-- R130: over the bytes 0x31 to 0x39 the frame check is 0x29B1. -/
theorem test_crc16_check : crc16 [0x31, 0x32, 0x33, 0x34, 0x35, 0x36, 0x37, 0x38, 0x39] = 0x29B1 := by decide +kernel
/-- R179: the block check over the same bytes. -/
theorem test_crc8_check : crc8 [0x31, 0x32, 0x33, 0x34, 0x35, 0x36, 0x37, 0x38, 0x39] = 0xB4 := by decide +kernel
/-- Section 1.10, step F1: count 16,777,211 does not reach 16,777,212. -/
theorem test_diff_before_wrap : diff 16777211 16777212 = -1 ∧ reaches 16777211 16777212 = false := by decide
/-- Section 1.10, step F6: (16,777,214 + 2) modulo 2^24 is 0, and 0 reaches it. -/
theorem test_shift_wraps : shift 16777214 2 = 0 ∧ reaches 0 (shift 16777214 2) = true := by decide
/-- Section 1.10, steps F9 to F11, and the leads at 3 m/s. -/
theorem test_leads : (lead 25600 6000, lead 24533 6000, lead 23680 6000, lead 21333 6000, lead 21333 35000) =
    (15, 16, 16, 18, 105) := by decide
/-- Section 1.11: leads with no speed measured. -/
theorem test_leads_unmeasured : (lead 4194303 6000, lead 4194303 35000) = (0, 1) := by decide
/-- Section 1.10, T64 at steps F8 to F11. -/
theorem test_speed_figures : (speedFigure 7 2800, speedFigure 8 3200, speedFigure 9 3450, speedFigure 10 3700) =
    (4194303, 25600, 24533, 23680) := by decide
/-- Section 2.11, row 1: the baseline moves by trunc(−38 / 4) and trunc(21 / 4). -/
theorem test_baseline_joining :
    baselineAfter (divisor .joining) ⟨0, 0⟩ (cellOf 60 ⟨0, 0⟩ ⟨-38, 21⟩ false) = ⟨-9, 5⟩ := by decide
/-- Section 2.11, rows B and A: thin wire pulls the baseline by one count, and a board fragment holds it. -/
theorem test_baseline_running :
    baselineAfter (divisor .running) ⟨-35, 18⟩ (cellOf 60 ⟨-35, 18⟩ ⟨-81, 30⟩ false) = ⟨-36, 18⟩ ∧
      baselineAfter (divisor .running) ⟨-35, 18⟩ (cellOf 60 ⟨-35, 18⟩ ⟨-190, 85⟩ true) = ⟨-35, 18⟩ := by decide
/-- Section 5.9, cases A, C, D and E of the fusion of class. -/
theorem test_effective_class :
    (let rep := fun (s : Nat) (c : PieceClass) => (⟨3, s, 0, c, .passed, 1, .clear, 0, 1, 0, 0, 0⟩ : PeerReport);
      (effectiveClass (some .board) [rep 1200 .ferrous], effectiveClass (some .nonferrous) [rep 1200 .board],
        effectiveClass (some .unknown) [rep 1200 .nonferrous],
        effectiveClass (some .unknown) [rep 1200 .steelLow, rep 2900 .unknown])) =
      (.ferrous, .nonferrous, .nonferrous, .unknown) := by decide
/-- Section 4.12: distances 1,220 and 1,640 give half-windows 21 and 25. -/
theorem test_half_windows : (halfWindow 12 8 1220, halfWindow 12 8 1640) = (21, 25) := by decide
/-- Section 6.12, t = 0: the visit order of span 3..8 with centroid 5. -/
theorem test_visit_order : visitOrder ⟨3, 8, 5⟩ = [5, 6, 4, 7, 3, 8] := by decide +kernel
/-- Section 8.11: the line position EDDY's PIECE carries. -/
theorem test_line_position : linePosition 2900 210355 209800 = 3455 := by decide

/-! ### One step of a command -/

/-- Section 1.11, backward edge: the sub-count stands at 0, so one backward edge makes a backward step. -/
theorem test_roll_back :
    (let s := after (.encoderEdge ⟨[], none⟩ false true) { run with belt := { run.belt with count := 9500 }, opts := { opt with p := 4 } };
      (s.belt.count, s.belt.sub, s.belt.state, s.belt.t64)) = (9499, 3, .reversing, 4194303) := by decide
/-- Section 1.11, silence expiry. -/
theorem test_silence_expiry :
    (let s := after (.stepSilenceExpiry [⟨.recessive, 100000⟩]) moving; (s.belt.state, s.belt.t64, s.counter .stops)) =
      (.stopped, 4194303, 1) := by decide
/-- Section 2.12, 50 µs: a trigger with a sweep in flight. -/
theorem test_row_overrun :
    (let s := (run.trigger 100).trigger 101; (s.scan.sweep, s.counter .rowOverrun)) = (some ⟨100, true, [101]⟩, 1) := by
  decide
/-- Section 3.11, row 4,001: one run opens piece A with tag 417 and lead 4,001. -/
theorem test_row_opens_piece :
    (let s := after (.rowRecord ⟨[], 0⟩) { run with former := ⟨[], [], 417, [], [row4001], []⟩ };
      (s.former.tag, s.former.pieces)) =
      (418, [⟨417, 4001, 4001, 2, 2, -360, 100, 19, 9, 10, 1, 0, false, false, false, false, [⟨9, 10⟩]⟩]) := by
  decide +kernel
/-- Section 3.11, row 4,009: A closes NONFERROUS with trail 4,008 and centroid 11. -/
theorem test_row_closes_piece :
    (let s := after (.rowRecord ⟨[], 0⟩) { run with former := ⟨[pieceA], [], 418, [], [emptyRow], []⟩ };
      s.former.queue.map fun r => (r.tag, r.trail, r.cls, r.centroid)) = [(417, 4008, .nonferrous, 11)] := by decide +kernel
/-- R45: of two offers that wait, one is made to a full queue and dropped, and one is left. -/
theorem test_offer_left :
    (let s := after (.rowRecord ⟨[], 1⟩) { run with former := ⟨[], [], 0, List.replicate 4 record, [], [record, record]⟩ };
      (s.former.queue.length, s.former.offers.length, s.counter .pieceDropped)) = (4, 1, 1) := by decide +kernel
/-- Section 4.12, notice 904: an EXPECTED entry with E 74,660 and expiry 74,704. -/
theorem test_expected_entry :
    (let r : ReceiveRecord := ⟨3, 1200, 904, .clear, 1260, 15, 3, 6, 4, 40, .nonferrous, .passed, 73020⟩;
      let s := after (.receiveRecord []) { run with opts := optGate, rxQueue := [r] };
      s.table.slots[0].map fun e => (e.state, e.lead, e.trail, e.deadline)) =
      some (.expected, 74660, 74674, some 74704) := by decide +kernel
/-- Section 4.12, notice 903: an escape record with E 74,630, H 21 and expiry 74,677. -/
theorem test_escape_record :
    (let r : ReceiveRecord := ⟨3, 1200, 903, .clear, 1680, 22, 14, 17, 15, 60, .ferrous, .ejected, 73410⟩;
      let s := after (.receiveRecord []) { run with opts := optGate, rxQueue := [r] };
      s.table.escapes.map fun x => (x.e, x.h, x.expiry)) = [(74630, 21, 74677)] := by decide +kernel
/-- Section 6.12, t = 15: lane 6 has been OPEN since 0 and trips until 30 ms. -/
theorem test_max_on_trip :
    (let s := after (.maxOnTrip [⟨.recessive, 15000⟩] 6) (run.setLane 6 openLane);
      (s.outlets.lanes[6].state, s.outlets.lanes[6].coolUntil, s.counter .maxOnTrip)) = (.cooling, some 30000, 1) := by
  decide +kernel
/-- Section 7.11, count 79,915: SW_DIV accepted closed makes the gate DIVERT and stops the timer. -/
theorem test_gate_reaches_divert :
    (let s := after (.switchEvent [] .div false) gateOut; (s.gate.state, s.gate.travel, s.gate.holders)) =
      (.divert, none, 1) := by decide +kernel
/-- Section 7.11, count 79,925: the hold-through test keeps the gate out for W2. -/
theorem test_hold_through :
    (let w2 : Window := ⟨5, 80120, 80150, .clear, none, 0⟩;
      let s : State := { gateOut with
        belt := { gateOut.belt with count := 79925 }, gate := { gateOut.gate with state := .divert, travel := none }
        outlets := { Outlets.afterReset with openQ := [w2] } };
      let t := s.gateCloseEvent 105 win;
      (t.gate.state, t.gate.holders, t.counter .holdThrough, t.table.reports)) =
      (.divert, 0, 1, [.settled 3 .ejected none .clear]) := by decide +kernel
/-- R86: the step reaches P_open − L (1,001) between the reading of the count and the queuing, so the window is taken at the
next step without LATE-OPEN. -/
theorem test_step_between :
    (let p : PieceRecord := { record with lead := 423, trail := 450 };
      let s := after (.localPiece []) (after (.encoderEdge ⟨[], some .localPiece⟩ true false)
        { moving with former := ⟨[], [], 0, [p], [], []⟩ });
      (s.belt.count, s.outlets.openQ.map fun w => (w.pOpen, w.flags.lateOpen))) = (1001, [(1019, false)]) := by
  decide +kernel
/-- R132: a break that ends on a free bus with a notice in the queue is followed by its attempt. -/
theorem test_break_end_attempts :
    (after (.breakEnd []) (withLink { Link.afterReset with
      state := .breaking, breakTime := some 28, idle := 192, queue := [ownHello] })).link.state = .arbitrating := by
  decide +kernel
/-- R172: 0x10 followed by three more bits is a START, and 0x00 a fetch. -/
theorem test_transaction_bits :
    (let zeros := List.replicate 8 false;
      (transactionCommand [] 0 (zeros.set 3 true ++ [true, true, true]) none, transactionCommand [] 0 zeros none)) =
      (some (.start (say [])), none) := by decide
/-- Section 8.12: a valid frame with the station's own number sets the mute flag. -/
theorem test_own_number : (after (.validFrame [] (heard 0x35 (.piece piece904) 1260)) (withLink receiving)).station.mute = true := by
  decide +kernel
/-- Section 9.10: a PIECE from an UNKNOWN slot is NOTICE-IGNORED. -/
theorem test_piece_ignored :
    (let s := after (.validFrame [] (heard 0x33 (.piece piece904) 1260)) (withLink receiving);
      (s.rxQueue.length, s.counter .noticeIgnored, s.link.state)) = (0, 1, .idle) := by decide +kernel
/-- Section 10.8: at 800 ms a QUIET cover station becomes ABSENT and the mode ALONE. -/
theorem test_absent_cover :
    (let s := after (.absent [] 3) { run with
        opts := { opt with cover := some 3 }
        station := { run.station with roster := run.station.roster.set 3 ⟨.quiet, some ferro, some 800000⟩ } };
      (s.station.roster[3].state, s.station.roster[3].fields, s.station.mode)) = (.absent, some ferro, .alone) := by
  decide +kernel
/-- Section 11.8: START in SETUP with a valid block answers OK and enters JOINING. -/
theorem test_start :
    (let s := after (.start (say [])) (inState .setup); (s.station.state, s.port.response)) = (.joining, some ⟨.ok, []⟩) := by
  decide +kernel
/-- R172: a transaction whose SEL_N fell before reset ended is ignored whole. -/
theorem test_transaction_through_reset :
    (after (.start ⟨[], 1, []⟩) (inState .setup)).station.state = .setup := by decide +kernel

/-! ### Witnesses: states and operands that meet the hypotheses of each statement

With an empty lapse the state after the lapse is the state itself; `run`, `moving` and their variants stand for both. -/

/-- run with other options. -/
def withOpt (o : Options) : State := { run with opts := o }

/-- run with another belt. -/
def withBelt (b : Belt) : State := { run with belt := b }

/-- run with another scan unit. -/
def withScan (c : Scan) : State := { run with scan := c }

/-- run with one roster slot. -/
def withSlot (n : Fin 16) (r : RosterSlot) : State :=
  { run with station := { run.station with roster := run.station.roster.set n r } }

/-- run while reset is asserted. -/
def held : State := { run with rst := { run.rst with asserted := true, start := 2000 } }

/-- run with an option write in progress. -/
def writing : State := { run with store := { run.store with writing := some (Vector.replicate 47 0) } }

/-- A frame being sent, with arbitration won. -/
def helloFrame : TxFrame := frameOf ownHello

/-- A link that contends with its HELLO. -/
def contending : Link :=
  { Link.afterReset with
    state := .arbitrating, queue := [{ ownHello with attempted := true }], frame := some helloFrame, arbTime := some 0 }

/-- Section 8.12, two stations 9: Y's HELLO (ARB 89) loses to X's PIECE (ARB 57) at ARB data bit 2, having read 0 0. -/
theorem test_arbitration_bits_kept :
    ({ contending with frame := some { helloFrame with arb := 89 } }.lose 1).arbRead = [false, false] := by decide
/-- R133, R126: at 500 kbit/s the start bit and the eight data bits take 18 µs. -/
theorem test_sending_after_eighth_bit :
    ((withLink contending).elapse [⟨.dominant, 17⟩]).link.state = .arbitrating ∧
      ((withLink contending).elapse [⟨.dominant, 18⟩]).link.state = .sending := by decide
/-- R131: a glitch of 3 dominant samples is counted once, so 22 µs after its edge (176 samples) 173 have been recessive. -/
theorem test_glitch_counted_once :
    ((after (.startEdge [] 0x3F8) (withLink { Link.afterReset with idle := 176 })).elapse [⟨.recessive, 22⟩]).link.idle = 173 := by
  decide
/-- R139: 64 µs after a start edge the dominant count is 512, one sample short of a stuck line. -/
theorem test_start_bit_counted_once :
    ((after (.startEdge [] 0) (withLink { Link.afterReset with idle := 176 })).elapse [⟨.dominant, 64⟩]).link.dominant = 512 := by
  decide
/-- R172, R173: NOT-READY (4) goes out as 0 0 0 0 0 1 0 0. -/
theorem test_sdo_bits :
    ((List.range 8).map fun k => run.sdoBit false k) = [false, false, false, false, false, true, false, false].map some := by decide

/-- A block that passes the tests of R179 (section 11.8). -/
def goodArgs : List Byte :=
  bytesOf 2 4100 ++ [0x40] ++ bytesOf 2 300 ++ bytesOf 2 6000 ++ [4, 6] ++ bytesOf 2 200 ++ [0, 1, 1, 2, 4, 0, 8, 12, 0, 5] ++
    bytesOf 2 10 ++ bytesOf 2 3000 ++ bytesOf 2 40 ++ bytesOf 2 60 ++ bytesOf 2 500 ++ bytesOf 2 600 ++ bytesOf 2 700 ++
    bytesOf 2 800 ++ bytesOf 2 900 ++ [8, 12, 15] ++ bytesOf 2 3000 ++ [12, 8, 1]

/-- The same with a low rise below the fault rise. -/
def badArgs : List Byte := goodArgs.take 37 ++ bytesOf 2 650 ++ goodArgs.drop 39

theorem witness_StepRunsFrontCommand :
    State.pending { run with pending := [.opened []] } = [.opened []] ∧ run.pending = [] := by decide
theorem witness_ResetHoldsEveryBlock : held.rst.asserted = true ∧ (Instr.opened []).actsInReset = false := by decide
theorem witness_TimePassesAlone :
    (withLink contending).link.state = .arbitrating ∧ (withLink contending).link.arbTime = some 0 ∧
      lapseUs [⟨.dominant, 18⟩] = 18 ∧ run.rst.asserted = false ∧ (withSlot 3 ⟨.quiet, none, some 800000⟩).station.roster[3].silence = some silenceStop ∧
      run.station.roster[4].silence = none ∧ held.rst.asserted = true ∧ held.rst.acting = false := by decide +kernel

/-- A link with one notice on a free bus. -/
def freeBus (n : Notice) : Link := { Link.afterReset with idle := 192, queue := [n] }

/-- A station that hears JET, with one notice on a free bus. -/
def queued (n : Notice) : State := { withSlot 7 ⟨.present, some jet, some 0⟩ with link := freeBus n }

/-- A PIECE whose lead crossed n steps ago. -/
def pieceAt (n : Int) : PieceNotice := { piece904 with lead := shift 0 (-n) }

theorem witness_HandOnFrame :
    run.opts.kind ≠ .nothing ∧ (let idle : State := withLink { Link.afterReset with idle := 192 };
      let n : Notice := ⟨37, .piece (pieceAt 1199), false⟩;
      let a := queued n;
      let m : State := { idle with belt := moving.belt };
      run.blocked = true ∧ moving.blocked = false ∧ (announces idle a && a.mayRequest) = false ∧
        idle.mayAttempt = false ∧ a.mayAttempt = true ∧ a.link.queue = [n] ∧ a.listeners = [jet] ∧
        (a.opts.s : Int) + diff a.belt.count (pieceAt 1199).lead < (jet.s : Int) ∧
        (announces idle m && m.mayRequest) = true ∧ m.link.waiting = none ∧ m.link.queue = [] ∧ m.link.queue.length < 16 ∧
        (a.mayAttempt = true ∧ (withLink receiving).mayAttempt = false)) := by decide +kernel
theorem witness_BlockingCutsWindows :
    (let w : Window := { win with grant := 0b11 };
      let a : State := { gateOut with belt := { gateOut.belt with state := .stopped } };
      let b : State := { a with
        outlets := { a.outlets with closeQ := [w], lanes := (a.outlets.lanes.set 0 openLane).set 1 { openLane with holders := 2 } } };
      gateOut.blocked = false ∧ a.blocked = true ∧ a.opts.kind = .gate ∧ a.gate.holders = a.outlets.closeQ.length ∧
        a.gate.state = .movingOut ∧ b.blocked = true ∧ (b.outlets.closeQ.countP fun w => w.grant.getLsbD (1 : Fin 32).val) = 1 ∧
        b.outlets.lanes[1].holders = 2 ∧ b.outlets.lanes[0].holders = 1) := by decide +kernel
theorem witness_CountsAndLead : 0 < 1 ∧ lead 1 7 < 511 ∧ lead 1 8 = 511 := by decide
theorem witness_EdgesAndSilence :
    (let s := fun n : Nat => { withBelt { run.belt with sub := n } with opts := { opt with p := 4 } };
      let t := fun (n : Option Nat) (b : BeltState) => withBelt { run.belt with silence := n, state := b };
      (s 2).rst.asserted = false ∧ ((false, false), (true, false)) ∈ forwardPairs ∧ (s 2).belt.sub + 1 < (s 2).opts.p ∧
        ((false, true), (false, false)) ∈ forwardPairs ∧ (s 1).belt.sub ≠ 0 ∧ true ≠ run.belt.encA ∧
        true ≠ run.belt.encB ∧ false = run.belt.encA ∧ (t (some 100000) .moving).rst.asserted = false ∧
        (t (some 100000) .moving).belt.silence = some 100000 ∧ (t (some 100000) .moving).belt.state ≠ .stopped ∧
        (t (some 100000) .stopped).belt.state = .stopped ∧ (t (some 99999) .moving).belt.silence = some 99999 ∧
        (t none .moving).belt.silence = none) := by decide
theorem witness_ForwardStepUnsettles :
    run.rst.asserted = false ∧ ((run.belt.encA, run.belt.encB), (true, false)) ∈ forwardPairs ∧
      run.opts.p ≤ run.belt.sub + 1 ∧ run.belt.state = .stopped ∧
      (withBelt { run.belt with state := .reversing }).belt.state = .reversing := by decide
theorem witness_ForwardStepMeasures :
    moving.rst.asserted = false ∧ ((moving.belt.encA, moving.belt.encB), (true, false)) ∈ forwardPairs ∧
      moving.opts.p ≤ moving.belt.sub + 1 ∧ moving.belt.state = .moving ∧
      (withBelt { run.belt with state := .unsettled, ring := List.replicate 7 0 }).belt.state = .unsettled := by decide
theorem witness_BackwardStepReverses :
    moving.rst.asserted = false ∧ ((false, true), (moving.belt.encA, moving.belt.encB)) ∈ forwardPairs ∧
      moving.belt.sub = 0 := by decide
theorem witness_RowTriggerAcceptance :
    (withOpt { opt with scan := false }).opts.scan = false ∧ (inState .setup).station.state = .setup ∧
      run.opts.scan = true ∧ run.station.state ≠ .setup ∧ run.scan.sweep = none ∧ run.scan.job = none ∧
      (withScan { run.scan with job := some (.aux .supply) }).scan.job ≠ none ∧
      (run.trigger 100).scan.sweep = some ⟨100, true, []⟩ := by decide
theorem witness_SweepCompletes :
    (let s : State := withScan { (run.trigger 100).scan with jobTime := 64 };
      s.rst.asserted = false ∧ s.scan.job = some .sweep ∧ s.scan.sweep = some ⟨100, true, []⟩ ∧ 64 ≤ s.scan.jobTime ∧
        run.scan.job = none ∧ (withScan { run.scan with sweep := some ⟨100, false, []⟩ }).scan.sweep = some ⟨100, false, []⟩ ∧
        (withScan { run.scan with sampleWait := some (.lane 31) }).scan.sampleWait = some (.lane 31) ∧
        run.scan.sampleWait = none ∧ (withScan { run.scan with auxWait := some .coil }).scan.auxWait = some .coil) := by
  decide
theorem witness_TicksAndSamples :
    (let s := fun (n : Nat) (w : Option AuxChannel) => withScan { run.scan with auxTimer := n, auxWait := w };
      let c := fun live : Bool => withScan { run.scan with job := some (.sample (.lane 31) live), jobTime := 2 };
      (s 1024 none).rst.asserted = false ∧ 1024 ≤ (s 1024 none).scan.auxTimer ∧ (s 1024 none).scan.auxWait = none ∧
        (s 1024 (some .coil)).scan.auxWait ≠ none ∧ (s 1023 none).scan.auxTimer < 1024 ∧
        (say [33]).selected ≤ run.rst.sinceEnd ∧ run.store.writing = none ∧ (say [33]).args = [33] ∧
        (33 : Byte).toNat < 34 ∧ 2 ≤ (c true).scan.jobTime ∧ (c true).scan.job = some (.sample (.lane 31) true) ∧
        (c false).scan.job = some (.sample (.lane 31) false)) := by decide
theorem witness_AuxiliaryValueTaken :
    (let s := fun c : AuxChannel => withScan { run.scan with job := some (.aux c), jobTime := 2 };
      let drop := withScan { (s .supply).scan with candidate := some .low, bandRun := 3 };
      (s .supply).rst.asserted = false ∧ (s .supply).valid = true ∧ 2 ≤ (s .supply).scan.jobTime ∧
        (s .supply).scan.job = some (.aux .supply) ∧
        ((s .supply).scan.takeSupply opt (((-1248 : Raw).toInt + 2048).toNat)).band = (s .supply).scan.band ∧
        drop.scan.job = some (.aux .supply) ∧
        (drop.scan.takeSupply opt (((-1249 : Raw).toInt + 2048).toNat)).band ≠ drop.scan.band ∧
        (s .coil).scan.job = some (.aux .coil) ∧ State.valid { s .coil with valid := false } = false) := by decide
theorem witness_BandRules :
    (let s : State := { (run.setLane 31 openLane).setLane 30 openLane with opts := { opt with bNormal := 1 } };
      run.scan.bandRun ≤ 3 ∧ targetBand opt run.scan.band 800 = run.scan.band ∧ Band.low ≠ run.scan.band ∧
        run.scan.bandRun = 0 ∧ targetBand opt run.scan.band 799 = .low ∧ targetBand opt run.scan.band 600 = .low ∧
        s.outlets.openCount - s.budget = 1 ∧ s.dropToBudget.outlets.lanes[31].state = .closed ∧
        s.dropToBudget.outlets.lanes[30].state = .opened) := by decide +kernel
/-- A row whose occupied cells are those of some runs. -/
def rowOf (runs : List LaneRun) : RowRecord :=
  { emptyRow with
    cells := Vector.ofFn fun n =>
      ⟨0, 0, runs.any fun r => decide (r.lo ≤ n.val ∧ n.val ≤ r.hi), runs.any fun r => decide (r.lo ≤ n.val ∧ n.val ≤ r.hi)⟩ }

theorem witness_RowTaken :
    (let meets := fun (r : LaneRun) (held : List LaneRun) => held.any fun h => decide (r.lo ≤ h.hi + 1 ∧ h.lo ≤ r.hi + 1);
      let runs : List LaneRun := [⟨0, 1⟩, ⟨10, 12⟩, ⟨31, 31⟩];
      let piece := fun (lead : Count) (lane : Nat) => { pieceA with lead := lead, runs := [⟨lane, lane⟩] };
      let pieces := [piece 4001 20, piece 4001 13, piece 4001 16, piece 4000 24];
      let ended := [piece 4001 20, piece 4001 16, piece 4000 24];
      let closing := [(piece 4000 24, false), (piece 4001 16, false), (piece 4001 20, false)];
      let lowest := fun p : OpenPiece => p.runs.foldl (fun a r => min a r.lo) 32;
      let s : State := { run with former := ⟨pieces, [[⟨0, 0⟩]], 4095, [], [rowOf runs], []⟩ };
      s.rst.asserted = false ∧ s.former.rows = [rowOf runs] ∧ s.former.offers = [] ∧
        runs.Pairwise (fun r r' => r.hi + 1 < r'.lo) ∧ (∀ r ∈ runs, r.lo ≤ r.hi ∧ r.hi < 32) ∧
        (∀ n : Fin 32, (rowOf runs).cells[n].occupied = runs.any fun r => decide (r.lo ≤ n.val ∧ n.val ≤ r.hi)) ∧
        (∀ r ∈ runs, ∀ r' ∈ runs, ∀ held ∈ pieces.map OpenPiece.runs ++ s.former.longRuns,
          meets r held = true → meets r' held = true → r = r') ∧
        (∀ r ∈ runs, (pieces.countP fun p => meets r p.runs) ≤ 1) ∧
        pieces.filter (fun p => !runs.any fun r => meets r p.runs) = ended ∧ closing.Perm (ended.map fun p => (p, false)) ∧
        closing.Pairwise (fun a b => 0 < diff b.1.lead a.1.lead ∨ (b.1.lead = a.1.lead ∧ lowest a.1 < lowest b.1)) ∧
        (∀ p ∈ pieces, p.rows < 254)) := by decide +kernel
/-- Open pieces that a row merges: it has three groups, the first a chain through three pieces. -/
def merging : List OpenPiece :=
  [{ pieceA with runs := [⟨4, 6⟩] }, { pieceA with lead := 4000, runs := [⟨10, 12⟩] }, { pieceA with runs := [⟨14, 14⟩] },
    { pieceA with runs := [⟨20, 20⟩] }, { pieceA with runs := [⟨24, 24⟩] }]

/-- The groups of that row. -/
def mergingGroups : List (List LaneRun) := [[⟨2, 3⟩, ⟨7, 9⟩, ⟨13, 13⟩], [⟨17, 19⟩], [⟨29, 30⟩]]

theorem witness_RowsJoinAndMerge :
    (let meets := fun (r : LaneRun) (held : List LaneRun) => held.any fun h => decide (r.lo ≤ h.hi + 1 ∧ h.lo ≤ r.hi + 1);
      let row := rowOf mergingGroups.flatten;
      let s : State := { run with former := ⟨merging, [[⟨28, 28⟩]], 418, [], [row], []⟩ };
      let holders := merging.map OpenPiece.runs ++ s.former.longRuns;
      let contacts := fun (g : List LaneRun) (held : List LaneRun) => g.any fun r => meets r held;
      let met := fun g : List LaneRun => merging.zipIdx.filter fun x => contacts g x.1.runs;
      let survives := fun (g : List LaneRun) (x : OpenPiece × Nat) => (met g).all fun y =>
        decide (y.2 = x.2 ∨ 0 < diff y.1.lead x.1.lead ∨ (y.1.lead = x.1.lead ∧ x.2 < y.2));
      (s.rst.asserted = false ∧ s.former.rows = [row] ∧ s.former.offers = [] ∧
        (∀ r ∈ mergingGroups.flatten, r.lo ≤ r.hi ∧ r.hi < 32) ∧
        mergingGroups.flatten.Pairwise (fun r r' => r.hi + 1 < r'.lo ∨ r'.hi + 1 < r.lo) ∧
        (∀ n : Fin 32, row.cells[n].occupied = mergingGroups.flatten.any fun r => decide (r.lo ≤ n.val ∧ n.val ≤ r.hi)) ∧
        (∀ g ∈ mergingGroups, g ≠ [] ∧ g.Pairwise fun r r' => r.lo < r'.lo) ∧
        mergingGroups.Pairwise (fun g g' => ∀ r ∈ g.head?, ∀ r' ∈ g'.head?, r.lo < r'.lo) ∧
        mergingGroups.Pairwise (fun g g' => ∀ held ∈ holders, ¬(contacts g held = true ∧ contacts g' held = true)) ∧
        mergingGroups.map (fun g => (met g).map Prod.snd) = [[0, 1, 2], [3], []] ∧
        (∀ g ∈ mergingGroups, met g = [] ∨ ∃ x ∈ met g, survives g x = true) ∧
        (merging.filter fun p => !mergingGroups.any fun g => contacts g p.runs) = [{ pieceA with runs := [⟨24, 24⟩] }] ∧
        (∀ p ∈ merging, p.rows < 254)) ∧
      ∀ g ∈ mergingGroups, ∀ part : LaneRun → Bool, (∃ r ∈ g, part r = true) → (∃ r ∈ g, part r = false) →
        ∃ held ∈ holders, ∃ r ∈ g, ∃ r' ∈ g, part r = true ∧ part r' = false ∧ meets r held = true ∧ meets r' held = true) := by
  refine ⟨by decide +kernel, fun g hg part ht hf => ?_⟩
  simp only [mergingGroups, List.mem_cons, List.not_mem_nil, or_false] at hg
  rcases hg with rfl | rfl | rfl <;>
    simp only [List.mem_cons, List.not_mem_nil, or_false, exists_eq_or_imp, exists_eq_left] at ht hf
  · cases h1 : part ⟨2, 3⟩ <;> cases h2 : part ⟨7, 9⟩ <;> cases h3 : part ⟨13, 13⟩ <;> simp_all [merging]
  · simp_all
  · simp_all
theorem witness_RowClosesPiece :
    (let s := fun n : Nat =>
        { run with former := ⟨[pieceA], [], 418, List.replicate n record, [emptyRow], []⟩ };
      let o : State := { run with former := ⟨[], [], 418, [], [], [record]⟩ };
      (s 3).rst.asserted = false ∧ (s 3).former.rows = [emptyRow] ∧ (s 3).former.pieces = [pieceA] ∧
        (s 3).former.offers = [] ∧ (∀ n : Fin 32, emptyRow.cells[n].occupied = false) ∧ (s 3).former.queue.length < 4 ∧
        4 ≤ (s 4).former.queue.length ∧ o.former.offers = [record] ∧ [record] ≠ []) := by decide +kernel
theorem witness_PieceNoticeRequested :
    (let s := queued ownHello;
      let acting : HelloFields := jet;
      s.listeners = [acting] ∧ acting.kind ≠ .nothing ∧ acting.station = .running ∧ run.listeners = [] ∧
        (s.station.state = .running ∧ s.station.mute = false) ∧ s.link.queue.length < 16 ∧
        16 ≤ (List.replicate 16 ownHello).length ∧ (inState .setup).station.state = .setup ∧
        (State.listeners (withSlot 7 ⟨.quiet, some { jet with station := .paused }, some 0⟩)) =
          [{ jet with station := .paused }]) := by decide +kernel
theorem witness_ReportsServed :
    (let s := fun r : OutletReport => { withEntry entry with table := { (withEntry entry).table with reports := [r] } };
      let o : OutletReport := .opened 3 7 .clear;
      let d : OutletReport := .settled 3 .denied (some .budget) .clear;
      (s o).rst.asserted = false ∧ entry.decision = some ⟨.ferrous, true, some (980, 1100), 0, .clear⟩ ∧
        (s o).takeRequest .report TableRequest.isOpened = some (⟨.report o, none⟩, withEntry entry) ∧
        (s d).takeRequest .report TableRequest.isSettled = some (⟨.report d, none⟩, withEntry entry) ∧
        (withEntry entry).table.slots[3] = some entry) := by decide +kernel

/-- No slot of a table after reset holds an entry. -/
theorem slots_free (j : Fin 128) : run.table.slots[j] = none := by
  simp [run, State.reset, Table.afterReset]

/-- A local piece of 10 cells that waits, on a belt, before an open queue. -/
def waits (b : Belt) (q : List Window) (trail : Count) : State :=
  { run with
    belt := b
    former := ⟨[], [], 0, [{ record with n := 10, lead := trail, trail := trail }], [], []⟩
    outlets := { run.outlets with openQ := q } }

/-- The same with the piece taken by the table. -/
def taken (b : Belt) (q : List Window) : State :=
  { run with belt := b, former := ⟨[], [], 0, [], [], []⟩, outlets := { run.outlets with openQ := q } }

/-- The readings of the moment on a moving belt, with no room. -/
def noRoom : Reading := { moving.reading with room := false }

/-- An EXPECTED entry that the record of section 5.9 matches. -/
def expected : Entry := { record.entry with own := none, expectation := some ⟨74641, 12, false⟩ }

/-- An escape record that it matches. -/
def escaped : EscapeRecord := ⟨3, 1200, 903, .nonferrous, .ejected, 60, .clear, 14, 17, 15, 74641, 0, 22, 74677⟩

/-- A state as the record of section 5.9 is taken from it. -/
def takes (s : State) : State := { s with former := ⟨[], [], 0, [], [], []⟩ }

/-- Slot 3 is the only one in use. -/
theorem slots_but_three (e : Entry) (j : Fin 128) (h : j ≠ 3) : (withEntry e).table.slots[j] = none := by
  have h' : ¬3 = j.val := fun hj => h (Fin.ext hj.symm)
  simp [withEntry, State.setSlot, run, State.reset, Table.afterReset, h']

theorem witness_LocalPieceDecided :
    (∀ b q trail, (waits b q trail).takeRequest .localPiece (TableRequest.isOf .localPiece) =
      some (⟨.localPiece { record with n := 10, lead := trail, trail := trail }, none⟩, taken b q)) ∧
    (let p := { record with n := 10 };
      State.takeRequest { waits moving.belt [] 0 with
          table := { run.table with inFlight := some ⟨.localPiece p, some noRoom⟩ } }
        .localPiece (TableRequest.isOf .localPiece) = some (⟨.localPiece p, some noRoom⟩, waits moving.belt [] 0)) ∧
    (∀ (j : Fin 128) (en : Entry), run.table.slots[j] = some en → en.state ≠ .expected) ∧ run.table.escapes = [] ∧
    run.table.slots[(0 : Fin 128)] = none ∧ (∀ j : Fin 128, j < 0 → run.table.slots[j].isSome = true) ∧
    (opt.kind ≠ .nothing ∧ ClassMask.has opt.eject record.cls = true ∧ opt.areaMin ≤ 10 ∧ 10 ≤ opt.areaMax ∧
      noRoom.room = false ∧ 32 ≤ (taken moving.belt (List.replicate 32 win)).outlets.openQ.length ∧
      moving.reading.due (shift 412 606) = true ∧ moving.reading.due (shift 413 606) = false ∧
      moving.reading.due (shift 422 596) = true ∧ moving.reading.due (shift 423 596) = false ∧
      moving.reading.room = true ∧ run.reading.belt ≠ .moving ∧ ClassMask.has opt.eject .board = false ∧
      optGate.kind = .gate) ∧
    ((withEntry expected).table.slots[3] = some expected ∧ expected.state = .expected ∧
      (∀ j : Fin 128, j ≠ 3 → (withEntry expected).table.slots[j] = none) ∧
      (diff record.lead 74641).natAbs ≤ 12 ∧ record.first ≤ expected.last + opt.peerWiden ∧
      expected.first ≤ record.last + opt.peerWiden) ∧
    (let watched : State := { run with table := { run.table with escapes := [{ escaped with e := 74642, h := 1 }, escaped] } };
      (takes { watched with former := ⟨[], [], 0, [record], [], []⟩ }).table.escapes[1]? = some escaped ∧
        (diff record.lead escaped.e).natAbs ≤ escaped.h ∧ record.first ≤ escaped.last + opt.peerWiden ∧
        escaped.first ≤ record.last + opt.peerWiden ∧ (diff record.lead 74641).natAbs < (diff record.lead 74642).natAbs ∧
        (diff record.lead 74640).natAbs = (diff record.lead 74642).natAbs ∧ 0 < diff 74642 74640) := by
  refine ⟨fun _ _ _ => rfl, rfl, ?_, rfl, slots_free 0, ?_, by decide, ?_, by decide⟩
  · intro j en h
    exact absurd ((slots_free j).symm.trans h) (by simp)
  · intro j h
    exact absurd h (Nat.not_lt_zero _)
  · exact ⟨by decide +kernel, by decide, slots_but_three expected, by decide⟩

theorem witness_LocalPieceFindsTableFull :
    (let g : State := { run with
        former := ⟨[], [], 0, [], [], []⟩
        table := { Table.afterReset with slots := Vector.replicate 128 (some { expected with expectation := some ⟨0, 25, false⟩ }) } };
      let s : State := { g with former := ⟨[], [], 0, [record], [], []⟩ };
      s.rst.asserted = false ∧
        s.takeRequest .localPiece (TableRequest.isOf .localPiece) = some (⟨.localPiece record, none⟩, g) ∧
        (diff record.lead 0).natAbs = 25 + 74616 ∧ ∀ j : Fin 128, ∃ en : Entry, g.table.slots[j] = some en ∧
          ∀ v, en.state = .expected → en.expectation = some v →
            ¬((diff record.lead v.e).natAbs ≤ v.h ∧ record.first ≤ en.last + g.opts.peerWiden ∧
              en.first ≤ record.last + g.opts.peerWiden)) := by
  refine ⟨rfl, rfl, by decide, fun j => ⟨{ expected with expectation := some ⟨0, 25, false⟩ }, by simp, ?_⟩⟩
  rintro v - ⟨⟩
  decide

/-- A receive record of class FERROUS from line position p, latched at 73,020. -/
def heardAt (p : Count) (v : Verdict) : ReceiveRecord := ⟨3, 1200, 904, .clear, p, 15, 3, 6, 4, 40, .ferrous, v, 73020⟩

/-- run, or a blind station, with a receive record that waits. -/
def receives (scan : Bool) (r : ReceiveRecord) : State := { withOpt { opt with scan := scan } with rxQueue := [r] }

theorem witness_ReceiveRecordPlaced :
    (∀ scan r, (receives scan r).takeRequest .received (TableRequest.isOf .received) =
      some (⟨.received r, none⟩, withOpt { opt with scan := scan })) ∧
    (∀ j : Fin 128, run.table.slots[j] = none) ∧
    (diff (BitVec.ofNat 24 opt.s) 2913 < -((min 1023 (opt.hb + opt.hd * 0 / 1000) : Nat) : Int) ∧
      -((min 1023 (opt.hb + opt.hd * 0 / 1000) : Nat) : Int) ≤ diff (BitVec.ofNat 24 opt.s) 2912 ∧
      (heardAt 2912 .passed).verdict = .passed ∧ opt.scan = true ∧
      reaches (withOpt { opt with scan := false }).belt.count (shift 73020 (600 - 4 - 512)) = false ∧
      reaches (withBelt { run.belt with count := 73104 }).belt.count (shift 73020 (600 - 4 - 512)) = true ∧
      ClassMask.has opt.eject .nonferrous = false ∧ opt.kind = .lanes ∧
      (let rd : Reading := { moving.reading with count := 73598 };
        ClassMask.has opt.eject .ferrous = true ∧ rd.mode = .assisted ∧ rd.belt = .moving ∧ rd.room = true ∧ rd.lead = 18 ∧
          reaches rd.count (shift 73616 (-18)) = true ∧ reaches rd.count (shift 73640 (-18)) = false)) ∧
    (let en : Entry := { record.entry with lead := 73020, last := 3, first := 3 };
      (withEntry en).table.slots[3] = some en ∧ en.own.isSome = true ∧ (diff 73020 en.lead).natAbs ≤ 12 ∧
        3 ≤ en.last + opt.peerWiden ∧ en.first ≤ 6 + opt.peerWiden ∧ (∀ j : Fin 128, j ≠ 3 → (withEntry en).table.slots[j] = none) ∧
        (diff 73020 73021).natAbs < (diff 73020 73018).natAbs ∧
        ((diff 73020 73019).natAbs = (diff 73020 73021).natAbs ∧ 0 < diff 73021 73019) ∧
        (Vector.replicate 128 (some en))[(127 : Fin 128)].isSome = true) :=
  ⟨fun _ _ => rfl, slots_free, by decide, by decide +kernel, by decide, by decide, by decide, by decide, slots_but_three _,
    by decide, by decide, by decide +kernel⟩

/-- A report of a sender at S. -/
def reportAt (s : Nat) (c : PieceClass) : PeerReport := ⟨3, s, 0, c, .passed, 10, .clear, 500, 1, 0, 0, 0⟩

theorem witness_ReportsFuse :
    (let e := fun (own : Option LocalPart) (rs : List PeerReport) => { record.entry with own := own, reports := rs };
      let part : LocalPart := ⟨.board, 0, 0, 1, .clear⟩;
      [reportAt 1 .board, reportAt 2 .board].length < 3 ∧ (List.replicate 3 (reportAt 1 .board)).length = 3 ∧
        (e none [reportAt 1 .ferrous]).reports.any (fun r => decide (r.cls = .ferrous)) = true ∧
        (e (some part) []).own = some part ∧ part.cls ≠ .unknown ∧
        chosenReport (e none [reportAt 2 .inert, reportAt 2 .board]).reports = some (reportAt 2 .board)) := by decide
theorem witness_EscapesAreWatched :
    (∀ scan r, (receives scan r).takeRequest .received (TableRequest.isOf .received) =
      some (⟨.received r, none⟩, withOpt { opt with scan := scan })) ∧
    (let r := escaped;
      let p : PieceRecord := { record with cls := .unknown };
      let g : State := { run with table := { run.table with escapes := [r] } };
      let s : State := { g with former := ⟨[], [], 0, [p], [], []⟩ };
      (heardAt 2912 .ejected).verdict = .ejected ∧ -((12 : Nat) : Int) ≤ diff (BitVec.ofNat 24 opt.s) 2912 ∧
        run.table.escapes.length < 32 ∧ 31 ≤ (List.replicate 31 r).length ∧
        s.takeRequest .localPiece (TableRequest.isOf .localPiece) = some (⟨.localPiece p, none⟩, g) ∧
        (diff p.lead r.e).natAbs ≤ r.h ∧ p.first ≤ r.last + opt.peerWiden ∧ r.first ≤ p.last + opt.peerWiden ∧
        g.opts.kind = .lanes ∧ optGate.kind = .gate ∧ (PieceRecord.n { p with n := 9 }) < opt.areaMin ∧
        opt.areaMax < (PieceRecord.n { p with n := 3001 }) ∧ ClassMask.has g.opts.eject .nonferrous = false ∧ g.station.mode = .assisted ∧
        g.table.slots[(0 : Fin 128)] = none) :=
  ⟨fun _ _ => rfl, by decide +kernel⟩

/-- A station whose slot 3 holds an entry with deadline 1,000, on a belt at that count. -/
def atDeadline (scan : Bool) (kind : OutletKind) (e : Entry) : State :=
  { withEntry { e with deadline := some 1000 } with
    opts := { opt with scan := scan, kind := kind }, belt := { moving.belt with state := .stopped } }

theorem witness_UnseenEntryExpires :
    (let e : Entry := { record.entry with expectation := some ⟨700, 12, true⟩ };
      let s := atDeadline true .lanes e;
      s.rst.asserted = false ∧ s.takeRequest .deadline (TableRequest.isOf .deadline) = some (⟨.deadline, none⟩, s) ∧
        s.opts.scan = true ∧ s.earliest = some (1000, .entry 3) ∧
        s.table.slots[3] = some { e with deadline := some 1000 } ∧ e.state = .expected ∧
        e.expectation = some ⟨700, 12, true⟩) := by decide +kernel
theorem witness_DeadlinesServed :
    (let e := fun (st : EntryState) (own : Bool) (c : PieceClass) =>
        { record.entry with
          state := st, own := if own then record.entry.own else none, reports := [reportAt 1 c]
          decision := some ⟨.board, false, none, 0, .clear⟩ };
      let s := fun (k : OutletKind) (en : Entry) => atDeadline false k en;
      let blind := s .lanes (e .expected false .ferrous);
      let esc : State := { run with
        belt := moving.belt
        table := { run.table with escapes := [⟨3, 1, 0, .board, .ejected, 1, .clear, 0, 0, 0, 900, 1, 1, 1000⟩] } };
      blind.takeRequest .deadline (TableRequest.isOf .deadline) = some (⟨.deadline, none⟩, blind) ∧
        blind.earliest = some (1000, .entry 3) ∧ blind.table.inFlight = none ∧ blind.deadlineStands = true ∧
        State.deadlineStands { blind with belt := { blind.belt with count := 999 } } = false ∧
        esc.takeRequest .deadline (TableRequest.isOf .deadline) = some (⟨.deadline, none⟩, esc) ∧
        esc.earliest = some (1000, .escape 0) ∧
        (s .gate (e .passing true .board)).earliest = some (1000, .entry 3) ∧
        chosenReport (e .expected false .ferrous).reports = some (reportAt 1 .ferrous) ∧
        ClassMask.has opt.eject .ferrous = true ∧ ClassMask.has opt.eject .board = false ∧ blind.reading.belt ≠ .moving ∧
        blind.reading.room = true ∧ noRoom.room = false ∧ blind.outlets.openQ.length < 32 ∧ blind.station.mode = .assisted ∧
        (s .gate (e .expected false .board)).opts.kind = .gate ∧ (s .nothing (e .expected false .ferrous)).opts.kind = .nothing ∧
        moving.reading.belt = .moving ∧ moving.reading.due (shift 412 606) = true ∧
        moving.reading.due (shift 413 606) = false ∧ moving.reading.due (shift 422 596) = true ∧
        moving.reading.due (shift 423 596) = false ∧
        opt.areaMin ≤ (reportAt 1 .ferrous).area ∧ (reportAt 1 .ferrous).area ≤ opt.areaMax ∧
        (let both : State := { blind with table := { blind.table with escapes := esc.table.escapes } };
          both.table.slots[3] = some { e .expected false .ferrous with deadline := some 1000 } ∧
            both.table.escapes[0]?.map EscapeRecord.expiry = some 1000 ∧ both.earliest = some (1000, .entry 3) ∧
            0 < diff 1001 1000 ∧ run.earliest = none)) := by decide +kernel
/-- R62: a deadline request that the table has taken is served though the belt has run back since; one not yet taken lapses. -/
theorem test_deadline_before_step_back :
    (let s := atDeadline true .lanes { record.entry with expectation := some ⟨700, 12, true⟩ };
      let back := fun s : State => after (.deadlineRequest []) (after (.encoderEdge ⟨[], none⟩ false true) s);
      let served := back (after (.readEntry (say [3, 0]) (some .deadline)) s);
      (served.belt.count, served.table.slots[3].isSome, served.counter .maybeUnseen, (back s).table.slots[3].isSome)) =
      (999, false, 1, true) := by decide +kernel

/-- R64, R86: at a blind station on a moving belt (count 1,000, L 18) a target whose close point is 1,018 settles LATE, and one
whose open point is 1,018 is DUE with LATE-OPEN. -/
theorem test_blind_target :
    (let s := fun lead : Count =>
        let e := { record.entry with own := none, reports := [{ reportAt 1 .ferrous with lead := lead }] }
        after (.deadlineRequest []) { atDeadline false .lanes e with belt := moving.belt };
      ((s 412).table.slots[3], (s 412).counter (.verdict .late .ferrous), (s 422).outlets.openQ.map fun w =>
        (w.pOpen, w.pClose, w.flags.lateOpen))) = (none, 1, [(1018, 1028, true)]) := by decide +kernel

theorem witness_ArbiterOrder :
    (let s : State := { run with former := ⟨[], [], 0, [record], [], []⟩, rxQueue := [heardAt 2912 .passed] };
      let f : State := { s with table := { s.table with inFlight := some ⟨.localPiece record, none⟩ } };
      s.mayTake .localPiece = true ∧ s.mayTake .received = false ∧ s.former.queue = [record] ∧
        State.mayTake { s with former := .afterReset } .received = true ∧ s.rxQueue = [heardAt 2912 .passed] ∧
        (let r : OutletReport := .settled 3 .late none .clear;
          let t : State := { s with table := { s.table with reports := [r] } };
          t.mayTake .report = true ∧ TableRequest.isSettled (.report r) = true) ∧
        (atDeadline true .lanes record.entry).mayTake .deadline = true ∧
        f.table.inFlight = some ⟨.localPiece record, none⟩ ∧ (TableRequest.localPiece record).claimant = .localPiece ∧
        s.table.inFlight = none ∧ s.mayTake .report = false) := by decide +kernel
theorem witness_LaneTimersAndTests :
    (let s := fun (l : Lane) (n : TimeBase) => { run.setLane 31 l with timeBase := n };
      let p := inState .paused;
      (s openLane 15000).rst.asserted = false ∧ (s openLane 15000).outlets.lanes[31].state = .opened ∧
        (s openLane 15000).outlets.lanes[31].openedAt = some 0 ∧
        1000 * (s openLane 15000).opts.tOnMax ≤ ((s openLane 15000).timeBase - 0).toNat ∧
        (s ⟨.cooling, 0, none, some 30000, none⟩ 30000).outlets.lanes[31].coolUntil = some 30000 ∧
        ((30000 : TimeBase) - 30000).toNat < 2 ^ 31 ∧
        (s { openLane with test := some 50000 } 0).outlets.lanes[31].test = some 50000 ∧
        (s { openLane with test := some 50000 } 0).outlets.lanes[31].holders = 1 ∧
        p.rst.asserted = false ∧ (say [31]).selected ≤ p.rst.sinceEnd ∧ p.store.writing = none ∧ (say [31]).args = [31] ∧
        32 ≤ (32 : Byte).toNat ∧ (31 : Fin 32).val = (31 : Byte).toNat ∧ p.opts.kind = .lanes ∧
        p.station.state = .paused ∧ p.outlets.lanes[31].state = .closed ∧ p.outlets.openCount < p.budget ∧
        (withOpt optGate).opts.kind ≠ .lanes ∧ run.station.state ≠ .paused ∧
        (p.setLane 31 openLane).outlets.lanes[31].state ≠ .closed ∧
        (State.budget { p with opts := { opt with bNormal := 0 } }) ≤ p.outlets.openCount) := by decide +kernel
theorem witness_LaneWindowEvents :
    (let sp : Span := ⟨3, 8, 5⟩;
      let g := fun avail : Nat => grantLanes 0 avail sp run.outlets.lanes;
      run.opts.kind = .lanes ∧ win.span = some sp ∧ sp.centroid < 32 ∧ 32 ≤ (List.replicate 32 win).length ∧
        run.outlets.closeQ.length < 32 ∧ (g 0).granted = 0 ∧ (g 1).granted ≠ 0 ∧
        (g 1).granted.getLsbD (5 : Fin 32).val = true ∧ (g 1).granted.getLsbD (6 : Fin 32).val = false ∧
        run.outlets.lanes[6].state = .closed) := by decide +kernel
theorem witness_GateWindowEvents :
    (let w : Window := { win with pOpen := 80125 };
      let s := fun (q : List Window) (n : Nat) => { gateOut with
        outlets := { gateOut.outlets with openQ := q }, gate := { gateOut.gate with holders := n } };
      gateOut.opts.kind = .gate ∧ 32 ≤ (List.replicate 32 w).length ∧ gateOut.outlets.closeQ.length < 32 ∧
        gateOut.gate.state = .movingOut ∧ (s [w] 1).gate.holders ≤ 1 ∧ 1 < (s [w] 2).gate.holders ∧
        reaches gateOut.belt.count (shift w.pOpen (-(2 * ((105 : Nat) : Int)))) = true ∧
        reaches gateOut.belt.count (shift (w.pOpen + 1) (-(2 * ((105 : Nat) : Int)))) = false ∧
        (s [] 0).gate.holders = 0 ∧ (Gate.afterReset .gate false true).state = .rest) := by decide
theorem witness_OutletStepInOrder :
    moving.belt.state = .moving ∧ moving.blocked = false ∧ run.belt.state ≠ .moving ∧
      (let s : State := { moving with station := (inState .paused).station };
        s.belt.state = .moving ∧ s.blocked = true) := by decide
theorem witness_BlockedStepDenies :
    (let s : State := { moving with station := (inState .paused).station };
      s.rst.asserted = false ∧ ((s.belt.encA, s.belt.encB), (true, false)) ∈ forwardPairs ∧ s.opts.p ≤ s.belt.sub + 1 ∧
        s.belt.state = .moving ∧ s.station.state ≠ .running ∧
        (withScan { run.scan with band := .fault }).scan.band = .fault ∧
        (let g : State := { gateOut with gate := { gateOut.gate with state := .fault } };
          g.opts.kind = .gate ∧ g.gate.state = .fault)) := by decide
theorem witness_GateEventsAct :
    gateOut.rst.asserted = false ∧ gateOut.opts.kind = .gate ∧ gateOut.gate.swDiv ≠ false ∧
      (let s : State := { gateOut with gate := { gateOut.gate with travel := some 70000 } };
        s.gate.travel = some 70000 ∧ s.gate.state = .movingOut ∧ max 20000 (2 * s.opts.d) ≤ 70000) := by decide
theorem witness_AttemptBegins :
    (let s := fun n : Int => queued ⟨37, .piece (pieceAt n), false⟩;
      (s 0).rst.asserted = false ∧ (s 0).link.state = .idle ∧ 192 ≤ (s 0).link.idle ∧ (s 0).station.state = .running ∧
        (s 0).station.mute = false ∧ (s 1199).listeners = [jet] ∧ (s 1200).link.waiting = none ∧
        ((s 1199).opts.s : Int) + diff (s 1199).belt.count (pieceAt 1199).lead < (jet.s : Int) ∧
        (jet.s : Int) ≤ ((s 1200).opts.s : Int) + diff (s 1200).belt.count (pieceAt 1200).lead ∧
        (let old : Notice := ⟨37, .piece (pieceAt 1200), false⟩;
          let t : State := { s 1200 with link := { freeBus old with queue := [old, old, ownHello], waiting := some jet } };
          t.link.queue = [old, old] ++ [ownHello] ∧ t.link.waiting = some jet ∧ [ownHello].length < 16 ∧
            ownHello.body ≠ .piece (pieceAt 1200)) ∧
        (s 191).link.state = .idle ∧ (inState .setup).station.state = .setup ∧ run.link.queue = [] ∧
        (withLink receiving).link.state ≠ .idle) := by decide +kernel
theorem witness_StartAndArbitration :
    (let s := fun n : Nat => withLink { Link.afterReset with idle := n };
      let c := withLink contending;
      (s 176).rst.asserted = false ∧ (s 176).link.state = .idle ∧ (0 : BitVec 10).getLsbD 0 = false ∧
        0 < (s 176).link.idle ∧ 0 < (s 1).link.idle ∧ (0x200 : BitVec 10).getLsbD 9 = true ∧
        (0 : BitVec 10).getLsbD 9 = false ∧ c.rst.asserted = false ∧ c.link.state = .arbitrating ∧
        c.link.frame = some helloFrame ∧ helloFrame.arb.getLsbD (7 - (1 : Fin 8).val) = true ∧ c.link.waiting = none ∧
        (withLink { contending with waiting := some jet }).link.waiting = some jet ∧
        { ownHello with attempted := true } ∈ c.link.queue ∧ ownHello.isHello = true ∧ c.link.latch = none ∧
        c.link.queue.find? (fun n => n.attempted) = some { ownHello with attempted := true } ∧
        (withLink { receiving with latch := none }).link.latch = none ∧ (withLink receiving).link.state = .receiving ∧
        (withLink { contending with state := .sending }).link.state = .sending ∧ (s 0).link.idle = 0 ∧
        (1 : BitVec 10).getLsbD 0 = true ∧ receiving.arbRead = [] ∧ (contending.lose 1).arbRead = [false, false]) := by
  decide +kernel
theorem witness_AttemptsEnd :
    (let k : Link := { contending with state := .sending, latch := some 7 };
      let s := withLink k;
      s.rst.asserted = false ∧ s.link.state = .sending ∧ s.link.frame = some helloFrame ∧ 9 < 10 * helloFrame.bytes.length ∧
        119 < 10 * helloFrame.bytes.length ∧ s.link.waiting = none ∧ s.link.latch = some 7 ∧
        (withLink { k with waiting := some jet }).link.waiting = some jet ∧
        (k.queue.filter fun n => !n.attempted).length < 16 ∧
        (withLink { Link.afterReset with state := .breaking, breakTime := some 28 }).link.breakTime = some 28 ∧
        14 * (if run.opts.rate = 2 then 1 else if run.opts.rate = 1 then 2 else 4) ≤ 28 ∧
        (withLink contending).link.state = .arbitrating ∧ (withLink contending).link.frame = some helloFrame ∧
        helloFrame.arb.getLsbD (8 - 1) = false) := by decide +kernel
theorem witness_FaultsAndDiscards :
    (let s := fun (st : LinkState) (i d : Nat) => withLink { Link.afterReset with state := st, idle := i, dominant := d };
      (s .idle 0 513).rst.asserted = false ∧ (s .idle 0 513).link.state ≠ .lineFault ∧ 513 ≤ (s .idle 0 513).link.dominant ∧
        (∀ n ∈ (s .idle 0 513).link.queue, n.attempted = false) ∧ (s .lineFault 2048 0).link.state = .lineFault ∧
        2048 ≤ (s .lineFault 2048 0).link.idle ∧ (s .idle 0 512).link.dominant < 513 ∧
        (s .lineFault 2047 0).link.idle < 2048) ∧
    (withLink receiving).rst.asserted = false ∧ (withLink receiving).link.state = .receiving ∧
      receive [cleanByte 0x25, badStop] [] = .discarded .framing ∧
      receive [cleanByte 0x25, { cleanByte 0x28 with edge := 193 }, cleanByte 0x28] [] = .discarded .gap ∧
      receive [cleanByte 0x25, { cleanByte 0x08 with edge := 192 }] [] = .discarded .unknownKind ∧
      receive [cleanByte 0x25, cleanByte 0x08] [] = .discarded .unknownKind ∧
      receive [cleanByte 0x25, cleanByte 0x29] [] = .discarded .length ∧
      receive ([0x25, 0x64, 0, 0, 0, 0, 0, 0].map cleanByte) [] = .discarded .crc ∧
      (let sampled := fun (x : LineByte) (k : Fin 10) =>
          decide (2 ≤ bit (x.bits[k].getLsbD 0) + bit (x.bits[k].getLsbD 1) + bit (x.bits[k].getLsbD 2));
        let read := [0x25, 0x64, 0, 0, 0, 0, 0].map cleanByte;
        2 ≤ bit (glitch.bits[0].getLsbD 0) + bit (glitch.bits[0].getLsbD 1) + bit (glitch.bits[0].getLsbD 2) ∧
          (∀ x ∈ read, sampled x 0 = false ∧ sampled x 9 = true) ∧ (∀ x ∈ read.drop 1, x.edge ≤ 192) ∧
          read.length = 4 + 3 ∧ (0x64 : Byte).toNat / 32 = 3 ∧ (0x64 : Byte).toNat % 32 = 4 ∧ sampled badStop 0 = false ∧
          sampled badStop 9 = false ∧ (0x08 : Byte).toNat / 32 = 0 ∧ (0x29 : Byte).toNat % 32 ≠ 8) := by decide +kernel
theorem witness_SentFramesAreReceived :
    jet.inRange = true ∧ HelloFields.inRange { jet with s := 65535, o := 4095, step := 3 } = true ∧
      piece904.inRange = true ∧ PieceNotice.inRange { piece904 with length := 65535, area := 8160, last := 31 } = true := by
  decide

/-- A HELLO, an ESCAPE and a PIECE of FERRO read on a clean line. -/
theorem receive_hello : receive (heard 0x53 (.hello ferro) 0) [] = .valid 0x53 0x28 (helloPayload ferro) := by decide +kernel

theorem witness_HelloFillsRoster :
    (let s := withLink receiving;
      s.rst.asserted = false ∧ s.link.state = .receiving ∧ s.link.latch = some 73020 ∧ kindOf 0x28 = 1 ∧
        (3 : Fin 16).val = (0x53 : Byte).toNat % 16 ∧ (3 : Fin 16) ≠ s.station.number ∧ s.station.roster[3].state ≠ .self ∧
        helloOfPayload (helloPayload ferro) = some ferro ∧ s.opts.cover ≠ some 3 ∧ s.link.idle < 192 ∧
        192 ≤ (withLink { receiving with idle := 192 }).link.idle ∧
        receive (s.link.reads (heard 0x53 (.hello ferro) 0)) [] = .valid 0x53 0x28 (helloPayload ferro) ∧
        (receiving.reads (heard 0x53 (.hello ferro) 0) = heard 0x53 (.hello ferro) 0) ∧
        (withOpt { opt with cover := some 3 }).opts.cover = some 3) := by decide +kernel
theorem witness_EscapeIsCounted :
    (let x := fun n : Fin 16 => (⟨n, 903, .board⟩ : EscapeNotice);
      receive (receiving.reads (heard 0x63 (.escape (x 5)) 0)) [] = .valid 0x63 0x64 (escapePayload (x 5)) ∧
        (0x64 : Byte).toNat / 32 = 3 ∧ (3 : Fin 16).val = (0x63 : Byte).toNat % 16 ∧
        escapePayload (x 5) = [5, 0x03, 0x87, 3] ∧ escapePayload (x 7) = [7, 0x03, 0x87, 3] ∧
        (withLink receiving).station.number = 5 ∧ ((escapePayload (x 5)).set 3 6).getD 3 0 = 6 ∧
        ((helloPayload ferro).set 4 0xE0).getD 4 0 = 0xE0 ∧
        [PieceClass.ferrous, .steelLow, .nonferrous, .board, .inert, .unknown][3]? = some .board) := by decide +kernel
theorem witness_PiecesAndOwnNumber :
    (let good := piecePayload piece904 1260;
      let bad := good.set 12 7;
      let s := fun (senderS : Nat) (st : SlotState) => withSlot 3 ⟨st, some { ferro with s := senderS }, some 0⟩;
      receive (receiving.reads (heard 0x33 (.piece piece904) 1260)) [] = .valid 0x33 0x4E good ∧ kindOf 0x4E = 2 ∧
        (3 : Fin 16).val = (0x33 : Byte).toNat % 16 ∧ (inState .joining).station.state = .joining ∧
        recordOfPayload bad 3 0 73020 = none ∧ (recordOfPayload good 3 0 73020).isSome = true ∧ bad.getD 12 0 = 7 ∧
        good = [0x38, 0x80, 0, 4, 236, 0, 15, 3, 6, 4, 0, 40, 2, 0] ∧
        (s 1200 .mismatch).station.roster[3].state ≠ .present ∧ (s 1200 .quiet).station.roster[3].state = .quiet ∧
        ((s 2900 .present).opts.s : Int) - 2900 < 1 ∧ 1 ≤ ((s 2899 .present).opts.s : Int) - 2899 ∧
        ((withOpt { opt with listen := 1699 }).opts.listen : Int) < (opt.s : Int) - 1200 ∧
        (opt.s : Int) - 1200 ≤ ((withOpt { opt with listen := 1700 }).opts.listen : Int) ∧ run.rxQueue.length < 4 ∧
        receive (heard 0x55 (.hello jet) 0) [] = .valid 0x55 0x28 (helloPayload jet) ∧
        (0x55 : Byte).toNat % 16 = (withLink receiving).station.number.val) := by decide +kernel
theorem witness_StationTimersAct :
    (let j : State := { inState .joining with station := { (inState .joining).station with joining := some 400000 } };
      let h := fun n : Nat => { run with station := { run.station with hello := some n } };
      let e : Notice := ⟨101, .escape ⟨3, 9, .board⟩, false⟩;
      j.rst.asserted = false ∧ j.station.state = .joining ∧ j.station.joining = some 400000 ∧
        (h 200000).station.hello = some 200000 ∧ (h 200000).station.state = .running ∧ (h 200000).station.mute = false ∧
        (h 200000).link.queue = [] ∧ (h 200000).link.waiting = none ∧ (h 199999).station.hello = some 199999 ∧
        (inState .setup).station.state = .setup ∧
        [ownHello].find? (fun x => x.isHello) = some ownHello ∧ ownHello.attempted = false ∧
        contending.queue.find? (fun x => x.isHello) = some { ownHello with attempted := true } ∧
        List.replicate 16 e = List.replicate 15 e ++ e :: [] ∧ e.attempted = false ∧ e.isHello = false) ∧
    (let s := fun (st : SlotState) (n : Nat) => withSlot 3 ⟨st, some ferro, some n⟩;
      (s .present 600000).station.roster[3].silence = some 600000 ∧
        (s .present 600000).opts.cover ≠ some 3 ∧ (s .present 600000).station.roster[3].state = .present ∧
        (s .quiet 800000).station.roster[3].state = .quiet ∧ (s .quiet 800000).station.roster[3].silence = some 800000 ∧
        (s .present 599999).station.roster[3].silence = some 599999 ∧
        (s .quiet 799999).station.roster[3].silence = some 799999 ∧
        (let c : State := { s .quiet 800000 with opts := { opt with cover := some 3 } };
          c.station.mode = c.modeNow)) := by decide +kernel
theorem witness_StateCommandsAnswer :
    run.rst.asserted = false ∧ (say []).selected ≤ run.rst.sinceEnd ∧ run.store.writing = none ∧
      (inState .setup).station.state = .setup ∧ (inState .setup).valid = true ∧
      State.valid { inState .setup with valid := false } = false ∧ run.station.state = .running ∧
      (inState .paused).station.state = .paused := by decide
theorem witness_PinsShowState :
    held.rst.asserted = true ∧ run.rst.asserted = false ∧ (withLink contending).link.state = .arbitrating ∧
      (withLink contending).link.frame = some helloFrame ∧ helloFrame.bytes[0]? = some 0x55 ∧
      (withScan { run.scan with job := some .sweep, jobTime := 39 }).scan.jobTime < 40 ∧
      40 ≤ (withScan { run.scan with job := some .sweep, jobTime := 40 }).scan.jobTime ∧ run.port.response = none ∧
      (run.answer .ok [7]).port.response = some ⟨.ok, [7]⟩ := by decide +kernel
theorem witness_ResponseLayouts : run.table.slots[(0 : Fin 128)] = none ∧ (withEntry entry).table.slots[3] = some entry := by
  decide +kernel
theorem witness_StatusAndCauseReads :
    run.rst.asserted = false ∧ (say []).selected ≤ run.rst.sinceEnd ∧ run.store.writing = none := by decide
theorem witness_ReadsAnswer :
    (let busy : State := { run with table := { run.table with inFlight := some ⟨.deadline, none⟩ } };
      let s : State := { run with rxQueue := [heardAt 2912 .passed] };
      (3 : Byte).toNat < 4 ∧ (6 : Byte).toNat < 7 ∧ (127 : Fin 128).val = (127 : Byte).toNat ∧ (1 : Byte).toNat < 2 ∧
        run.table.inFlight = none ∧ busy.table.inFlight ≠ none ∧ run.mayTake .received = false ∧
        s.takeRequest .received (fun _ => true) = some (⟨.received (heardAt 2912 .passed), none⟩, run) ∧
        State.port { run with port := { run.port with deferred := some (127, 1) } } =
          ⟨none, some (127, 1), run.port.attention⟩) := by decide +kernel
theorem witness_PortTestsAnswer :
    writing.store.writing.isSome = true ∧ run.store.writing = none ∧
      (∀ code ∈ [(0x09 : Byte), 0x0F, 0x14, 0x1F, 0x22, 0xFF], ¬(1 ≤ code.toNat ∧ code.toNat ≤ 8) ∧
        ¬(16 ≤ code.toNat ∧ code.toNat ≤ 19) ∧ code ≠ 0 ∧ code ≠ 0x20 ∧ code ≠ 0x21) ∧
      (say []).args = [] ∧ (say [127]).args.length < 2 ∧ (say (List.replicate 46 0)).args.length < 47 ∧
      (say [127, 2]).args = [127, 2] ∧ 2 ≤ (2 : Byte).toNat ∧ 4 ≤ (4 : Byte).toNat ∧ 7 ≤ (7 : Byte).toNat ∧ 34 ≤ (34 : Byte).toNat ∧
      128 ≤ (128 : Byte).toNat ∧ (List.replicate 7 true).length < 8 := by decide
theorem witness_OptionWriteActs :
    run.rst.asserted = false ∧ run.store.writing = none ∧ goodArgs.length = 47 ∧ run.station.state ≠ .setup ∧
      (inState .setup).station.state = .setup ∧
      (blockInRange (blockOf (blockArgs badArgs)) && blockOrdered (blockOf (blockArgs badArgs))) = false ∧
      (blockInRange (blockOf (blockArgs goodArgs)) && blockOrdered (blockOf (blockArgs goodArgs))) = true ∧
      writing.store.writing = some (Vector.replicate 47 0) := by decide +kernel
theorem witness_ResetSourcesAct :
    run.store.writing = none ∧ writing.store.writing = some (Vector.replicate 47 0) ∧ run.rst.asserted = false ∧
      (say []).selected ≤ run.rst.sinceEnd ∧
      (State.rst { held with rst := { held.rst with supplyLow := true } }).supplyLow = true ∧
      (State.rst { held with rst := { held.rst with pinLow := true } }).pinLow = true := by decide
theorem witness_ResetEndsInFirstState :
    held.rst.asserted = true ∧ held.rst.supplyLow = false ∧ held.rst.pinLow = false ∧ 2000 ≤ held.rst.start ∧
      (State.rst { held with rst := { held.rst with start := 1999 } }).start < 2000 ∧ run.rst.asserted = false ∧
      held.store.valid = false ∧ (Store.valid ⟨blockOf (blockArgs goodArgs), true, none⟩) = true ∧
      blockInRange (blockOf (blockArgs goodArgs)) = true := by decide +kernel
theorem witness_LanesStayWithinBudget :
    (let s := { run.setLane 31 openLane with opts := { opt with bNormal := 1 } };
      s.LanesWithinBudget ∧ s.outlets.openCount = s.budget ∧ ∃ t, step s = .next t) :=
  ⟨by decide +kernel, by decide +kernel, _, rfl⟩
theorem witness_TransmitQueueStaysSound :
    (let s := withLink contending; s.link.TransmitQueueSound ∧ s.link.queue ≠ [] ∧ ∃ t, step s = .next t) :=
  ⟨by decide +kernel, by decide, _, rfl⟩
theorem witness_RosterStaysSound :
    (let s := withSlot 3 ⟨.quiet, some ferro, some 800000⟩; s.RosterSound ∧ ∃ t, step s = .next t) :=
  ⟨by decide +kernel, _, rfl⟩
theorem witness_GateStaysSound : gateOut.GateSound ∧ gateOut.gate.state.commanded = true ∧ ∃ t, step gateOut = .next t :=
  ⟨by decide, by decide, _, rfl⟩
theorem witness_QueuesStayBounded :
    (let s := { gateOut with rxQueue := List.replicate 4 ⟨3, 1200, 904, .clear, 1260, 15, 3, 6, 4, 40, .nonferrous, .passed, 0⟩ };
      s.QueuesBounded ∧ ∃ t, step s = .next t) :=
  ⟨by decide +kernel, _, rfl⟩
theorem witness_ResetStaysSound :
    (let s : State := { State.reset with rst := ⟨⟨true, false, false, false, false⟩, true, true, false, 0, 0⟩, port := ⟨none, none, .empty⟩ };
      s.ResetSound ∧ s.rst.acting = true ∧ ∃ t, step s = .next t) :=
  ⟨by decide +kernel, by decide, _, rfl⟩

end Sys2Proof.Tests
end

section
/-! PROOFS. What the operations on belt counts and the lead give as numbers, and the statement about them. -/

namespace Sys2Proof.Machine

/-! ### Belt counts (R3) -/

/-- The difference is the residue mod 2^24, read as negative from 2^23 on (R3). -/
theorem diff_eq_signed_residue (a b : Count) :
    diff a b =
      (let r : Nat := (a.toNat + 2 ^ 24 - b.toNat) % 2 ^ 24;
        if r < 2 ^ 23 then (r : Int) else (r : Int) - 2 ^ 24) := by
  have residue : (a - b).toNat = (a.toNat + 2 ^ 24 - b.toNat) % 2 ^ 24 := by
    rw [BitVec.toNat_sub]
    have := b.isLt
    congr 1
    omega
  rw [diff, BitVec.toInt_eq_toNat_cond, residue]
  dsimp only
  split <;> split <;> omega

/-- Reaching is a difference of at least 0 (R3). -/
theorem reaches_iff_diff_nonneg (a b : Count) : reaches a b = true ↔ 0 ≤ diff a b :=
  decide_eq_true_iff

/-- Being before is not reaching (R3). -/
theorem isBefore_iff_not_reaches (a b : Count) : isBefore a b = true ↔ reaches a b = false := by
  rw [isBefore, Bool.not_eq_true']

/-- An offset count is the sum mod 2^24, for offsets of either sign (R3). -/
theorem toNat_shift (a : Count) (n : Int) : ((shift a n).toNat : Int) = ((a.toNat : Int) + n) % 2 ^ 24 := by
  have offset : ((BitVec.ofInt 24 n).toNat : Int) = n % 2 ^ 24 := by
    rw [BitVec.toNat_ofInt]
    omega
  rw [shift, BitVec.toNat_add, Int.natCast_emod, Int.natCast_add, offset]
  exact Int.add_emod_emod _ _ _

/-! ### Leads (R9) -/

/-- The clamp of the lead. -/
theorem lead_le_clamp (t64 d : Nat) : lead t64 d ≤ 511 := Nat.min_le_left _ _

/-- The lead exceeds D × 64 / T64 by at most half a step. -/
theorem lead_at_most_half_above (t64 d : Nat) : 2 * t64 * lead t64 d ≤ 128 * d + t64 := by
  have whole : t64 * lead t64 d ≤ d * 64 + t64 / 2 :=
    (Nat.mul_le_mul_left t64 (Nat.min_le_right _ _)).trans (Nat.mul_div_le _ _)
  rw [Nat.mul_assoc]
  omega

/-- A lead that is not clamped is less than half a step short of D × 64 / T64. -/
theorem lead_less_than_half_below {t64 d : Nat} (pos : 0 < t64) (unclamped : lead t64 d < 511) :
    128 * d < 2 * t64 * lead t64 d + t64 := by
  have quotient : lead t64 d = (d * 64 + t64 / 2) / t64 := by
    unfold lead at unclamped ⊢
    omega
  have next : d * 64 + t64 / 2 < t64 * (lead t64 d + 1) := quotient ▸ Nat.lt_mul_div_succ _ pos
  rw [Nat.mul_add_one t64] at next
  rw [Nat.mul_assoc]
  omega

/-- Settles O7: the counts' rules, and the lead between half a step above and half a step below D × 64 / T64. -/
theorem countsAndLead : Obligations.CountsAndLead := by
  unfold Obligations.CountsAndLead
  refine ⟨fun a b => ⟨?difference, ?reaching, ?before, ?offset⟩, fun t64 d pos => ⟨?clamp, ?above, ?below⟩⟩
  case difference => exact diff_eq_signed_residue a b
  case reaching => exact reaches_iff_diff_nonneg a b
  case before => exact isBefore_iff_not_reaches a b
  case offset => exact toNat_shift a
  case clamp => exact lead_le_clamp t64 d
  case above => exact lead_at_most_half_above t64 d
  case below => exact lead_less_than_half_below pos

end Sys2Proof.Machine
end

section
/-! PROOFS. Where the best of a list stands, and by it the joining of a report, the chosen report and the effective class. -/

namespace Sys2Proof.Machine

/-! ### The best of a list -/

/-- Under an order whose beating and not beating are transitive, the best beats everything before it in the list and is
beaten by nothing behind it. -/
theorem pickBest_splits {α : Type} {beats : α → α → Bool}
    (trans : ∀ x y z, beats x y = true → beats y z = true → beats x z = true)
    (negTrans : ∀ x y z, beats x y = false → beats y z = false → beats x z = false) {xs : List α} {x : α}
    (picked : pickBest beats xs = some x) :
    ∃ before after, xs = before ++ x :: after ∧ (∀ y ∈ before, beats x y = true) ∧ ∀ y ∈ after, beats y x = false := by
  induction xs generalizing x with
  | nil => simp [pickBest] at picked
  | cons head tail ih =>
    rw [pickBest] at picked
    split at picked
    case h_1 empty =>
      obtain rfl := pickBest_eq_none.mp empty
      obtain rfl := Option.some.inj picked
      exact ⟨[], [], rfl, by simp, by simp⟩
    case h_2 best tailBest =>
      obtain ⟨before, after, rfl, front, behind⟩ := ih tailBest
      cases wins : beats best head
      case true =>
        obtain rfl : best = x := by simpa [wins] using picked
        exact ⟨head :: before, after, rfl, List.forall_mem_cons.mpr ⟨wins, front⟩, behind⟩
      case false =>
        obtain rfl : head = x := by simpa [wins] using picked
        have noneBefore : ∀ y ∈ before, beats y head = false := fun y hy =>
          Bool.eq_false_iff.mpr fun beaten => Bool.eq_false_iff.mp wins (trans _ _ _ (front y hy) beaten)
        have noneAfter : ∀ y ∈ after, beats y head = false := fun y hy => negTrans _ _ _ (behind y hy) wins
        exact ⟨[], _, rfl, by simp, List.forall_mem_append.mpr ⟨noneBefore, List.forall_mem_cons.mpr ⟨wins, noneAfter⟩⟩⟩

/-- A cut of a list paired with its places is a cut of the list, and the pair behind the cut names the cut's place. -/
theorem cut_of_zipIdx {α : Type} {xs : List α} {x : α} {k : Nat} {before after : List (α × Nat)}
    (cut : xs.zipIdx = before ++ (x, k) :: after) :
    xs = before.map Prod.fst ++ x :: after.map Prod.fst ∧ k = (before.map Prod.fst).length := by
  obtain ⟨front, rest, rfl, rfl, places⟩ := List.zipIdx_eq_append_iff.mp cut
  obtain ⟨y, behind, rfl, pair, rfl⟩ := List.zipIdx_eq_cons_iff.mp places.symm
  obtain ⟨rfl, rfl⟩ := Prod.mk.inj pair
  simp

/-! ### The list of reports (R50, R79) -/

/-- A list of fewer than three takes a report at its end (R50). -/
theorem joinReport_of_room {rs : List PeerReport} (r : PeerReport) (room : rs.length < 3) : joinReport rs r = rs ++ [r] :=
  if_pos room

/-- Of a full list and the report that joins it, the one of the smallest S leaves, of equals the one held longest (R50). -/
theorem joinReport_of_full {rs : List PeerReport} (r : PeerReport) (full : 3 ≤ rs.length) :
    ∃ before x after, rs ++ [r] = before ++ x :: after ∧ joinReport rs r = before ++ after ∧
      (∀ y ∈ before, x.s < y.s) ∧ ∀ y ∈ after, x.s ≤ y.s := by
  rw [joinReport, if_neg full.not_gt]
  split
  case h_1 x k picked =>
    obtain ⟨before, after, cut, front, behind⟩ := pickBest_splits
      (by simp only [decide_eq_true_eq]; omega) (by simp only [decide_eq_false_iff_not]; omega) picked
    obtain ⟨list, rfl⟩ := cut_of_zipIdx cut
    refine ⟨before.map Prod.fst, x, after.map Prod.fst, list, ?leaves, ?front, ?behind⟩
    case leaves => rw [list, List.eraseIdx_append_of_length_le le_rfl, Nat.sub_self, List.eraseIdx_cons_zero]
    case front => simpa using front
    case behind => simpa using behind
  case h_2 nonePicked => simp at nonePicked

/-- The chosen report has the largest S, and those of equal S joined before it (R79). -/
theorem chosenReport_eq_some {rs : List PeerReport} {r : PeerReport} :
    chosenReport rs = some r ↔
      ∃ before after, rs = before ++ r :: after ∧ (∀ x ∈ before, x.s ≤ r.s) ∧ ∀ x ∈ after, x.s < r.s := by
  constructor
  · intro chosen
    obtain ⟨before, after, list, front, behind⟩ := pickBest_splits
      (by simp only [decide_eq_true_eq]; omega) (by simp only [decide_eq_false_iff_not]; omega) chosen
    exact ⟨before, after, list, by simpa using front, by simpa using behind⟩
  · rintro ⟨before, after, rfl, front, behind⟩
    exact pickBest_of_best (by simpa using behind) (by simpa using front)

/-! ### The effective class (R78) -/

section EffectiveClass

variable {own : Option PieceClass} {rs : List PeerReport}

/-- Any source that says FERROUS makes the piece FERROUS (R78 test 1). -/
theorem effectiveClass_of_ferrous (ferrous : own = some .ferrous ∨ ∃ r ∈ rs, r.cls = .ferrous) :
    effectiveClass own rs = .ferrous :=
  if_pos (by simpa using ferrous)

/-- Without a FERROUS source the local class stands when it is known, and the chosen report's, or UNKNOWN, when it is not
(R78 tests 2 to 4). -/
theorem effectiveClass_of_not_ferrous (notFerrous : ¬(own = some .ferrous ∨ ∃ r ∈ rs, r.cls = .ferrous)) :
    (∀ c, own = some c → c ≠ .unknown → effectiveClass own rs = c) ∧
      ((∀ c, own = some c → c = .unknown) → effectiveClass own rs = ((chosenReport rs).map PeerReport.cls).getD .unknown) := by
  unfold effectiveClass
  rw [if_neg (by simpa using notFerrous)]
  cases own with
  | none => simp
  | some c =>
    refine ⟨?known, fun unknown => if_neg (not_not.mpr (unknown c rfl))⟩
    rintro _ ⟨⟩ known
    exact if_pos known

end EffectiveClass

/-- Settles O25: by the place of the best of a list for the joining and the choice, and by the tests of R78 in their order. -/
theorem reportsFuse : Obligations.ReportsFuse := by
  unfold Obligations.ReportsFuse
  refine ⟨fun rs r => ⟨joinReport_of_room r, fun full => joinReport_of_full r full.ge⟩, fun rs r => chosenReport_eq_some,
    fun en => ⟨effectiveClass_of_ferrous, fun notFerrous => ?known, fun notFerrous => ?unknown⟩⟩
  all_goals obtain ⟨ofKnown, ofUnknown⟩ := effectiveClass_of_not_ferrous notFerrous
  case known =>
    intro o own known
    exact ofKnown o.cls (by rw [own, Option.map_some]) known
  case unknown =>
    intro unknown
    have byReport : en.effective = ((chosenReport en.reports).map PeerReport.cls).getD .unknown :=
      ofUnknown (by simpa using unknown)
    exact ⟨fun r chosen => by rw [byReport, chosen]; rfl, fun empty => by rw [byReport, empty]; rfl⟩

end Sys2Proof.Machine
end

section
/-! PROOFS. What a valid frame of another number does before and after its kind acts, what an ESCAPE and a malformed HELLO do,
and the statement about them. -/

namespace Sys2Proof.Machine

/-! ### The reception that has ended stays ended -/

/-- The link holds nothing of a frame it reads: no bits of a lost arbitration and no latch count. -/
def Link.HoldsNoFrame (k : Link) : Prop := k.arbRead = [] ∧ k.latch = none

/-- A pending HELLO that takes a freed place leaves what the link holds of a frame (R141). -/
theorem Link.HoldsNoFrame.fillFreed {k : Link} (h : k.HoldsNoFrame) (number : Fin 16) :
    (k.fillFreed number).HoldsNoFrame := by
  unfold Link.fillFreed
  split
  · split <;> exact h
  · exact h

/-- Offering a HELLO changes the queue and the pending HELLO alone (R141). -/
theorem State.offerHello_holdsNoFrame {s : State} (h : s.link.HoldsNoFrame) (f : HelloFields) :
    (s.offerHello f).link.HoldsNoFrame := by
  unfold State.offerHello State.waitHello
  dsimp only
  split
  case isTrue pendingHello => exact h
  case isFalse noPending =>
    split
    case h_1 queued => split <;> exact h
    case h_2 noneQueued =>
      split
      case isTrue room => exact h
      case isFalse full => split <;> exact h

/-- The announcement that follows an event leaves what the link holds of a frame (R165). -/
theorem announce_holdsNoFrame {a : State} (h : a.link.HoldsNoFrame) (b : State) : (announce b a).link.HoldsNoFrame := by
  unfold announce State.requestHello
  split
  · split
    · exact State.offerHello_holdsNoFrame h _
    · exact h
  · exact h

/-- The stale checks change the queue, the pending HELLO and a counter alone (R150). -/
theorem State.staleChecks_holdsNoFrame {s : State} (h : s.link.HoldsNoFrame) : s.staleChecks.link.HoldsNoFrame := by
  unfold State.staleChecks
  dsimp only
  split
  case isTrue noneStale =>
    obtain ⟨v, counted⟩ := State.bumps_eq .txStale (s.link.queue.takeWhile s.dropsAsStale).length s
    rw [counted]
    exact h
  case isFalse someStale =>
    have left : Link.HoldsNoFrame { s.link with queue := s.link.queue.dropWhile s.dropsAsStale } := h
    exact left.fillFreed _

/-- The attempt that ends an event holds nothing of a frame that is read (R132). -/
theorem attemptIfReady_holdsNoFrame {a : State} (h : a.link.HoldsNoFrame) (b : State) :
    (attemptIfReady b a).link.HoldsNoFrame := by
  unfold attemptIfReady State.attempt State.beginAttempt
  split
  · exact h
  · split
    · dsimp only
      split
      case h_1 noneLeft => exact State.staleChecks_holdsNoFrame h
      case h_2 head => exact ⟨rfl, rfl⟩
    · exact h

/-- Where no blocking begins, what an event hands on leaves a link that holds nothing of a frame so. -/
theorem handOn_holdsNoFrame {b a : State} (blocking : b.blocked = true ∨ a.blocked = false) (h : a.link.HoldsNoFrame) :
    (handOn b a).link.HoldsNoFrame := by
  unfold handOn
  dsimp only
  rw [blockIfBegun_of blocking]
  obtain ⟨tied, marked⟩ := markTied_eq b (attemptIfReady b (announce b (attend b a)))
  rw [marked]
  exact attemptIfReady_holdsNoFrame (announce_holdsNoFrame (a := attend b a) h b) b

/-! ### The sender is heard (R152, R168) -/

/-- The state with its reception ended (R136). -/
def State.endReception (s : State) : State :=
  { s with link := { s.link with state := .idle, arbRead := [], latch := none } }

/-- A slot that is heard: QUIET becomes PRESENT, the fields stay, and the silence timer of any but the own slot is reloaded
(R168). -/
theorem RosterSlot.heard_eq (r : RosterSlot) :
    r.heard = ⟨if r.state = .quiet then .present else r.state, r.fields, if r.state = .self then r.silence else some 0⟩ := by
  obtain ⟨state, fields, silence⟩ := r
  cases state <;> rfl

/-- The mode that the roster gives depends on the cover station and the roster alone (R169). -/
theorem State.modeNow_congr {s t : State} (opts : s.opts = t.opts) (roster : s.station.roster = t.station.roster) :
    s.modeNow = t.modeNow := by
  simp only [State.modeNow, opts, roster]

/-- A valid frame of another number ends the reception and is dispatched by its kind (R136, R152). -/
theorem State.validFrame_of_other {e : State} {rx : List LineByte} {arb kl : Byte} {payload : List Byte} {latch : Count}
    {n : Fin 16} (receiving : e.link.state = .receiving) (latched : e.link.latch = some latch)
    (valid : receive (e.link.reads rx) [] = .valid arb kl payload) (sender : n.val = arb.toNat % 16)
    (other : n ≠ e.station.number) :
    e.validFrame rx = e.endReception.dispatch n (kindOf kl) payload latch := by
  have named : arbStation arb = n := Fin.ext sender.symm
  simp only [State.validFrame, receiving, latched, valid, State.takeFrame, named, other, if_false, State.endReception]

/-- What stands after an event that ended the reception at e, heard number n, and changed counters alone to give a. -/
structure HeardOnly (e a t : State) (n : Fin 16) : Prop where
  roster : t.station.roster = e.station.roster.set n e.station.roster[n].heard
  coverMode : e.opts.cover = some n → t.station.mode = t.modeNow
  otherMode : e.opts.cover ≠ some n → t.station.mode = e.station.mode
  link : t.link.HoldsNoFrame
  rxQueue : t.rxQueue = e.rxQueue
  belt : t.belt = e.belt
  scan : t.scan = e.scan
  former : t.former = e.former
  outlets : t.outlets = e.outlets
  slots : t.table.slots = e.table.slots
  counter : ∀ c : Counter, c ≠ .txDropped → c ≠ .txStale → t.counter c = a.counter c

/-- Hearing a number at the end of a reception and counting begins no blocking, so that the hand-on adds a HELLO, an attempt
and the mark of a tie alone. -/
theorem handOn_heardOnly {e a : State} {n : Fin 16} {v : Vector (BitVec 32) 78}
    (ha : a = { e.endReception.hear n with counters := v }) : HeardOnly e a (handOn e a) n := by
  obtain ⟨m, heard, otherMode, coverMode⟩ := e.endReception.setRoster_eq n e.station.roster[n].heard
  replace heard : e.endReception.hear n = _ := heard
  rw [heard] at ha
  have sameBlocked : a.blocked = e.blocked := by rw [ha]; rfl
  have noBlocking : e.blocked = true ∨ a.blocked = false := by
    rw [sameBlocked]
    exact Bool.eq_false_or_eq_true e.blocked
  have link : (handOn e a).link.HoldsNoFrame := handOn_holdsNoFrame noBlocking (by rw [ha]; exact ⟨rfl, rfl⟩)
  obtain ⟨k, w, tied, handed, counted⟩ := handOn_eq noBlocking
  have opts : (handOn e a).opts = e.opts := by rw [handed, ha]; rfl
  have roster : (handOn e a).station.roster = e.station.roster.set n e.station.roster[n].heard := by rw [handed, ha]; rfl
  have mode : (handOn e a).station.mode = m := by rw [handed, ha]
  have afterHearing : (e.endReception.hear n).modeNow = (handOn e a).modeNow :=
    State.modeNow_congr (by rw [opts, heard]; rfl) (by rw [roster, heard]; rfl)
  exact {
    roster, link
    coverMode := fun cover => mode.trans ((coverMode cover).trans afterHearing)
    otherMode := fun cover => mode.trans (otherMode cover)
    rxQueue := by rw [handed, ha]; rfl
    belt := by rw [handed, ha]; rfl
    scan := by rw [handed, ha]; rfl
    former := by rw [handed, ha]; rfl
    outlets := by rw [handed, ha]; rfl
    slots := by rw [handed, ha]; rfl
    counter := fun c dropped stale => by rw [handed]; exact counted c dropped stale }

/-! ### Content tests (R152) and the target of an ESCAPE (R154) -/

/-- The classes in the order of their codes, none above 5 (section 9.2). -/
theorem PieceClass.ofCode_eq_getElem? (k : Nat) :
    PieceClass.ofCode k = [PieceClass.ferrous, .steelLow, .nonferrous, .board, .inert, .unknown][k]? := by
  match k with
  | 0 | 1 | 2 | 3 | 4 | 5 => rfl
  | _ + 6 => rfl

/-- A HELLO whose outlet kind code is 3 is counted and does nothing else (R152). -/
theorem State.takeHello_of_malformed {payload : List Byte} (malformed : (payload.getD 4 0).toNat / 64 = 3) (s : State)
    (n : Fin 16) : s.takeHello n payload = s.bump .noticeMalformed := by
  have unread : helloOfPayload payload = none := by rw [helloOfPayload, payloadByte, malformed]; rfl
  rw [State.takeHello, unread]

/-- An ESCAPE whose class code is above 5 is counted and does nothing else (R152). -/
theorem State.takeEscape_of_malformed {payload : List Byte} (malformed : 5 < (payload.getD 3 0).toNat % 8) (s : State) :
    s.takeEscape payload = s.bump .noticeMalformed := by
  have noClass : PieceClass.ofCode ((payload.getD 3 0).toNat % 8) = none := by
    rw [PieceClass.ofCode_eq_getElem?]
    exact List.getElem?_eq_none malformed
  have unread : escapeOfPayload payload = none := by rw [escapeOfPayload, payloadByte, payloadByte, noClass]; rfl
  rw [State.takeEscape, unread]

/-- An ESCAPE with a class is counted under it when its target is this station, and nothing is done when it is another
(R154). -/
theorem State.takeEscape_of_class {payload : List Byte} {c : PieceClass}
    (cls : PieceClass.ofCode ((payload.getD 3 0).toNat % 8) = some c) (s : State) :
    s.takeEscape payload =
      if (payload.getD 0 0).toNat % 16 = s.station.number.val then s.bump (.escapeReported c) else s := by
  have read : escapeOfPayload payload =
      some ⟨Fin.ofNat 16 (payload.getD 0 0).toNat, BitVec.ofNat 12 (payloadNum payload 1 2), c⟩ := by
    rw [escapeOfPayload, payloadByte, payloadByte, cls]; rfl
  simp only [State.takeEscape, read, Fin.ext_iff, Fin.val_ofNat]

/-- The content of a HELLO or an ESCAPE fails its test (R152). -/
def Malformed (kind : Nat) (payload : List Byte) : Prop :=
  (kind = 1 ∧ (payload.getD 4 0).toNat / 64 = 3) ∨ (kind = 3 ∧ 5 < (payload.getD 3 0).toNat % 8)

/-- A malformed HELLO or ESCAPE is heard and counted (R152). -/
theorem State.dispatch_of_malformed {kind : Nat} {payload : List Byte} (malformed : Malformed kind payload) (s : State)
    (n : Fin 16) (latch : Count) : s.dispatch n kind payload latch = (s.hear n).bump .noticeMalformed := by
  obtain ⟨rfl, outletKind⟩ | ⟨rfl, cls⟩ := malformed
  · exact State.takeHello_of_malformed outletKind _ n
  · exact State.takeEscape_of_malformed cls _

/-- Hearing a number keeps the station's own. -/
theorem State.hear_number (s : State) (n : Fin 16) : (s.hear n).station.number = s.station.number := by
  obtain ⟨m, heard, -⟩ := s.setRoster_eq n s.station.roster[n].heard
  rw [State.hear, heard]

/-- Hearing a number keeps the counters. -/
theorem State.hear_counter (s : State) (n : Fin 16) (c : Counter) : (s.hear n).counter c = s.counter c := by
  obtain ⟨m, heard, -⟩ := s.setRoster_eq n s.station.roster[n].heard
  rw [State.hear, heard]
  rfl

/-- An ESCAPE with a class is heard, and counted under its class when its target is this station (R152, R154). -/
theorem State.dispatch_escape {payload : List Byte} {c : PieceClass}
    (cls : PieceClass.ofCode ((payload.getD 3 0).toNat % 8) = some c) (s : State) (n : Fin 16) (latch : Count) :
    s.dispatch n 3 payload latch =
      if (payload.getD 0 0).toNat % 16 = s.station.number.val then (s.hear n).bump (.escapeReported c) else s.hear n := by
  rw [← s.hear_number n]
  exact State.takeEscape_of_class cls _

/-- An ESCAPE that is not malformed has a class (R152). -/
theorem class_of_not_malformed {kind : Nat} {payload : List Byte} (escape : kind = 3)
    (wellFormed : ¬Malformed kind payload) : ∃ c, PieceClass.ofCode ((payload.getD 3 0).toNat % 8) = some c := by
  have inRange : (payload.getD 3 0).toNat % 8 < 6 := Nat.lt_of_not_ge fun above => wellFormed (.inr ⟨escape, above⟩)
  exact ⟨_, (PieceClass.ofCode_eq_getElem? _).trans (List.getElem?_eq_getElem inRange)⟩

/-- An ESCAPE, and a malformed HELLO, change counters alone once their sender is heard. -/
theorem State.dispatch_counts_alone {kind : Nat} {payload : List Byte} (taken : Malformed kind payload ∨ kind = 3)
    (s : State) (n : Fin 16) (latch : Count) :
    ∃ v, s.dispatch n kind payload latch = { s.hear n with counters := v } := by
  by_cases malformed : Malformed kind payload
  case pos => exact ⟨_, State.dispatch_of_malformed malformed s n latch⟩
  case neg =>
    obtain rfl := taken.resolve_left malformed
    obtain ⟨c, cls⟩ := class_of_not_malformed rfl malformed
    rw [State.dispatch_escape cls]
    split
    · exact ⟨_, rfl⟩
    · exact ⟨(s.hear n).counters, rfl⟩

/-! ### What is counted in the end -/

section Counted

variable {e a t : State} {n : Fin 16}

/-- Where hearing is all that is done, every counter but the two of the transmit queue stays. -/
theorem HeardOnly.counter_of_heard (h : HeardOnly e a t n) (heard : a = e.endReception.hear n) (c : Counter)
    (dropped : c ≠ .txDropped) (stale : c ≠ .txStale) : t.counter c = e.counter c := by
  rw [h.counter c dropped stale, heard]
  exact e.endReception.hear_counter n c

/-- Where one counter is raised besides, it is one more and the others stay. -/
theorem HeardOnly.counter_of_bump (h : HeardOnly e a t n) {k : Counter} (counted : a = (e.endReception.hear n).bump k)
    (dropped : k ≠ .txDropped) (stale : k ≠ .txStale) :
    t.counter k = saturatingInc (e.counter k) ∧
      ∀ c : Counter, c ≠ k → c ≠ .txDropped → c ≠ .txStale → t.counter c = e.counter c := by
  refine ⟨?raised, fun c differs dropped stale => ?kept⟩
  case raised =>
    rw [h.counter k dropped stale, counted, State.counter_bump, State.hear_counter]
    rfl
  case kept =>
    rw [h.counter c dropped stale, counted, State.counter_bump_of_ne _ differs]
    exact e.endReception.hear_counter n c

end Counted

/-- Settles O42: the reception ends and the sender is heard whatever the content, and one counter or none is raised by the
content test and the target. -/
theorem escapeIsCounted : Obligations.EscapeIsCounted := by
  unfold Obligations.EscapeIsCounted
  intro l rx arb kl payload latch n kind s e elapsed running receiving latched valid kindIs sender other byte malformed taken
  have act := State.validFrame_of_other receiving latched valid sender other
  obtain rfl : kind = kindOf kl := kindIs
  have runs : exec (.validFrame l rx) s = _ := event_eq (f := fun s => s.validFrame rx) elapsed running act
  obtain ⟨v, countsAlone⟩ := e.endReception.dispatch_counts_alone taken n latch
  have heard := handOn_heardOnly countsAlone
  have roster := heard.roster
  rw [RosterSlot.heard_eq] at roster
  obtain ⟨noBits, noLatch⟩ := heard.link
  refine ⟨_, runs, roster, heard.coverMode, heard.otherMode, ?malformed, ?ownTarget, ?otherTarget, noBits, noLatch,
    heard.rxQueue, heard.belt, heard.scan, heard.former, heard.outlets, heard.slots⟩
  case malformed =>
    intro fails
    exact heard.counter_of_bump (State.dispatch_of_malformed fails ..) nofun nofun
  case ownTarget =>
    intro passes own c cls
    have escape : kindOf kl = 3 := taken.resolve_left passes
    have counted : e.endReception.dispatch n (kindOf kl) payload latch = (e.endReception.hear n).bump (.escapeReported c) := by
      rw [escape, State.dispatch_escape ((PieceClass.ofCode_eq_getElem? _).trans cls)]
      exact if_pos own
    exact heard.counter_of_bump counted nofun nofun
  case otherTarget =>
    intro passes another c _ dropped stale
    have escape : kindOf kl = 3 := taken.resolve_left passes
    obtain ⟨cls, hasClass⟩ := class_of_not_malformed escape passes
    have uncounted : e.endReception.dispatch n (kindOf kl) payload latch = e.endReception.hear n := by
      rw [escape, State.dispatch_escape hasClass]
      exact if_neg another
    exact heard.counter_of_heard uncounted c dropped stale

end Sys2Proof.Machine
end

section
/-! PROOFS. Every command as one act after its lapse, and the statements about the running of commands. -/

namespace Sys2Proof.Machine

/-- What a transaction does once its lapse has passed (R172, R174). -/
def State.transact (s : State) (t : Transaction) (needs : Nat) (ok : List Byte → Bool) (own : State → State) : State :=
  if s.ignores t then s else s.command needs ok t.args own

/-- What a command does once its lapse has passed, before anything is handed on; for RESET, what it does when it begins no
reset. -/
def State.act (s : State) : Instr → State
  | .encoderEdge l a b => (s.readAhead l.between).encoderEdge a b
  | .stepSilenceExpiry _ => s.silenceExpiry
  | .sweepComplete _ raw curtain => s.completeSweep raw curtain
  | .auxiliaryTick _ => s.auxTick
  | .auxiliaryConversionComplete _ result => s.completeAux result
  | .sampleComplete _ result => s.completeSample result
  | .rowRecord l => s.nextRow l.left
  | .opened _ => s.request .report TableRequest.isOpened
  | .settled _ => s.request .report TableRequest.isSettled
  | .localPiece _ => s.request .localPiece (TableRequest.isOf .localPiece)
  | .receiveRecord _ => s.request .received (TableRequest.isOf .received)
  | .deadlineRequest _ => s.request .deadline (TableRequest.isOf .deadline)
  | .maxOnTrip _ lane => s.tripLane lane
  | .coolingEnd _ lane => s.endCooling lane
  | .testLane t => s.transact t 1 anyArgs fun s => s.testLaneCommand (argNum t.args 0)
  | .testLaneEnd _ lane => s.endTestLane lane
  | .switchEvent _ sw high => s.switchEvent sw high
  | .travelTimeout _ => s.travelTimeout
  | .busFree _ => s.attempt
  | .arbitrationLost _ k => s.onLink fun x => x.lose k
  | .latchCount _ => s.onLink fun k => k.latchCount s.opts.s s.belt.count
  | .bitError _ bit => s.bitError bit
  | .breakEnd _ => s.onLink (Link.breakEnd s.opts.rate)
  | .transmitCompletion _ => s.onLink (Link.complete s.station.number)
  | .lineFault _ => s.lineStuck
  | .lineFaultEnd _ => s.onLink Link.lineClear
  | .frameDiscard _ rx => s.discardFrame rx
  | .validFrame _ rx => s.validFrame rx
  | .joiningTimerExpiry _ => s.joiningExpiry
  | .helloTimerExpiry _ => s.helloExpiry
  | .quiet _ slot => s.quietSlot slot
  | .absent _ slot => s.absentSlot slot
  | .readStatus t => s.transact t 0 anyArgs State.readStatus
  | .readCause t => s.transact t 0 anyArgs State.readCause
  | .readRoster t => s.transact t 1 (firstBelow 4) fun s => s.answer .ok (s.rosterGroup (argNum t.args 0))
  | .readEntry t inFlight => s.transact t 2 (fun a => firstBelow 128 a && decide (argNum a 1 < 2))
      fun s => s.readEntry inFlight (Fin.ofNat 128 (argNum t.args 0)) (argNum t.args 1)
  | .readEntryDeferred _ => s.answerDeferred
  | .readCounters t => s.transact t 1 (firstBelow pages) fun s => s.answer .ok (s.pageBytes (argNum t.args 0))
  | .readAndClearCounters t => s.transact t 1 (firstBelow pages)
      fun s => (s.clearPage (argNum t.args 0)).answer .ok (s.pageBytes (argNum t.args 0))
  | .readOptions t => s.transact t 0 anyArgs State.readOptions
  | .writeOptions t => s.transact t 47 anyArgs fun s => s.writeOptions t.args
  | .optionWriteCompleted _ => s.writeCompleted
  | .start t => s.transact t 0 anyArgs State.startCommand
  | .pause t => s.transact t 0 anyArgs State.pauseCommand
  | .resume t => s.transact t 0 anyArgs State.resumeCommand
  | .reset t => s.transact t 0 anyArgs id
  | .sample t => s.transact t 1 (firstBelow 34) fun s => s.sampleCommand (argNum t.args 0)
  | .unknownCommandCode t code =>
      if s.ignores t || !unknownCode code then s else s.command 0 (fun _ => false) t.args id
  | .powerOn _ => s.powerOn
  | .coreSupplyDrop _ => s.supplyDrop
  | .resetPin _ => s.pinReset
  | .resetEnd _ pins => s.endReset pins
  | .startEdge _ samples => s.onLink fun k => k.startEdge samples
  | .supplyRise _ => { s with rst := s.rst.supplyRise }
  | .resetPinHigh _ => { s with rst := s.rst.pinHigh }

/-- A command of the reset logic acts after its lapse, reset asserted or not (R182). -/
theorem exec_of_actsInReset {c : Instr} (acts : c.actsInReset = true) (s : State) :
    exec c s = .next ((s.elapse c.lapse).act c) := by
  cases c with
  | powerOn | coreSupplyDrop | resetPin | optionWriteCompleted | supplyRise | resetPinHigh | resetEnd => rfl
  | _ => cases acts

/-- A RESET that is neither ignored nor met by a write in progress begins a reset (R181). -/
def State.resets (e : State) : Instr → Bool
  | .reset t => !(e.ignores t || e.store.writing.isSome)
  | _ => false

/-- A RESET that acts begins the reset and hands nothing on (R181). -/
theorem exec_of_resets {c : Instr} {s : State} (resets : (s.elapse c.lapse).resets c = true) :
    exec c s = .next (s.elapse c.lapse).softReset := by
  cases c with
  | reset t => exact if_neg (Bool.eq_false_iff.mp ((Bool.not_eq_true' _).mp resets))
  | _ => cases resets

/-- Every other command is an event (R15, R32, R47, R74, R171). -/
theorem exec_eq_event {c : Instr} {s : State} (other : c.actsInReset = false)
    (keeps : (s.elapse c.lapse).resets c = false) : exec c s = event c.lapse (fun e => e.act c) s := by
  cases c with
  | reset t => exact if_pos ((Bool.not_eq_false' _).mp keeps)
  | powerOn | coreSupplyDrop | resetPin | optionWriteCompleted | supplyRise | resetPinHigh | resetEnd => cases other
  | _ => rfl

/-- What a command does: while reset is asserted its time passes, in the running part it acts and hands on, and the commands
of the reset logic and a RESET act alone. -/
theorem exec_cases (c : Instr) (s : State) :
    (c.actsInReset = false ∧ (s.elapse c.lapse).rst.asserted = true ∧ exec c s = .next (s.elapse c.lapse)) ∨
    (c.actsInReset = false ∧ (s.elapse c.lapse).rst.asserted = false ∧
      exec c s = .next (handOn (s.elapse c.lapse) ((s.elapse c.lapse).act c))) ∨
    (c.actsInReset = true ∧ exec c s = .next ((s.elapse c.lapse).act c)) ∨
    (c.actsInReset = false ∧ (s.elapse c.lapse).rst.asserted = false ∧
      exec c s = .next (s.elapse c.lapse).softReset) := by
  cases acts : c.actsInReset with
  | true => exact .inr (.inr (.inl ⟨rfl, exec_of_actsInReset acts s⟩))
  | false =>
    cases resets : (s.elapse c.lapse).resets c with
    | true =>
      have running : (s.elapse c.lapse).rst.asserted = false := by
        cases c with
        | reset t => simp_all [State.resets, State.ignores]
        | _ => cases resets
      exact .inr (.inr (.inr ⟨rfl, running, exec_of_resets resets⟩))
    | false =>
      rw [exec_eq_event acts resets]
      cases asserted : (s.elapse c.lapse).rst.asserted with
      | true => exact .inl ⟨rfl, rfl, event_asserted asserted⟩
      | false => exact .inr (.inl ⟨rfl, rfl, event_running asserted⟩)

/-- The commands of the reset logic leave the waiting commands. -/
theorem State.act_pending_of_actsInReset {c : Instr} (acts : c.actsInReset = true) (e : State) :
    (e.act c).pending = e.pending := by
  cases c with
  | optionWriteCompleted l => simp only [State.act, State.writeCompleted]; split <;> rfl
  | resetEnd l pins =>
    rcases e.endReset_cases pins with ⟨-, ends⟩ | ⟨-, ends⟩
    · rw [State.act, ends]; rfl
    · rw [State.act, ends]
  | powerOn | coreSupplyDrop | resetPin | supplyRise | resetPinHigh => rfl
  | _ => cases acts

/-- Settles O1: both parts are the two equations of the step. -/
theorem stepRunsFrontCommand : Obligations.StepRunsFrontCommand := by
  unfold Obligations.StepRunsFrontCommand
  refine ⟨fun c rest s front => ?_, fun s empty => ?_⟩
  · simp only [step, front]
  · simp only [step, empty]

/-- Settles O2: by the cases of a command; the hand-on, the reset logic and a lapse all leave the waiting commands. -/
theorem everyCommandRuns : Obligations.EveryCommandRuns := by
  unfold Obligations.EveryCommandRuns
  intro c s
  have lapse := s.elapse_pending c.lapse
  rcases exec_cases c s with ⟨-, -, runs⟩ | ⟨-, -, runs⟩ | ⟨acts, runs⟩ | ⟨-, -, runs⟩
  · exact ⟨_, runs, lapse⟩
  · exact ⟨_, runs, lapse⟩
  · exact ⟨_, runs, (State.act_pending_of_actsInReset acts _).trans lapse⟩
  · exact ⟨_, runs, lapse⟩

/-- Settles O3: an event lets its lapse pass, and a RESET is ignored, while reset is asserted. -/
theorem resetHoldsEveryBlock : Obligations.ResetHoldsEveryBlock := by
  unfold Obligations.ResetHoldsEveryBlock
  intro c s asserted other
  have still : (s.elapse c.lapse).rst.asserted = true := (s.elapse_asserted c.lapse).trans asserted
  rcases exec_cases c s with ⟨-, -, runs⟩ | ⟨-, running, -⟩ | ⟨acts, -⟩ | ⟨-, running, -⟩
  · exact runs
  · simp [still] at running
  · simp [other] at acts
  · simp [still] at running

/-! ### What every step keeps -/

/-- What time keeps, and every command that acts keeps, every step keeps, whatever the waiting commands. -/
theorem step_keeps {P : State → Prop} (queue : ∀ s q, P s → P { s with pending := q })
    (time : ∀ s v n, P s → P (s.pass v n))
    (event : ∀ c e, e.rst.asserted = false → c.actsInReset = false → P e → P (handOn e (e.act c)))
    (logic : ∀ c e, c.actsInReset = true → P e → P (e.act c))
    (soft : ∀ e, P e → P e.softReset) {s t : State} (holds : P s) (next : step s = .next t) : P t := by
  have command : ∀ c u, P u → exec c u = .next t → P t := by
    intro c u hu runs
    have he := State.elapse_keeps time c.lapse u hu
    rcases exec_cases c u with ⟨-, -, r⟩ | ⟨other, running, r⟩ | ⟨acts, r⟩ | ⟨-, -, r⟩ <;> rw [r] at runs <;> cases runs
    · exact he
    · exact event c _ running other he
    · exact logic c _ acts he
    · exact soft _ he
  unfold step at next
  split at next
  · exact command _ _ (queue s _ holds) next
  · cases next
    exact time s _ 1 holds

end Sys2Proof.Machine
end

section
/-! PROOFS. Which parts of the state each command's act can change: the frame that the promises of every step rest on. -/

namespace Sys2Proof.Machine

/-! ### Parts of the state -/

/-- The parts of the state that the promises speak of: lists by what bounds them, the former's queue of records as pieces, the
roster with its mode. -/
inductive Part where
  | opts | number | asserted | acting | belt | band | overrun | pieces | slots | escapes | openQ | closeQ | lanes | gate | link
  | rxQueue | state | roster | store

/-- A part of t is as in s. -/
def Part.Same (s t : State) : Part → Prop
  | .opts => t.opts = s.opts
  | .number => t.station.number = s.station.number
  | .asserted => t.rst.asserted = s.rst.asserted
  | .acting => t.rst.acting = s.rst.acting
  | .belt => t.belt = s.belt
  | .band => t.scan.band = s.scan.band
  | .overrun => t.scan.sweep.map Sweep.overrun = s.scan.sweep.map Sweep.overrun
  | .pieces => t.former.queue = s.former.queue
  | .slots => t.table.slots = s.table.slots
  | .escapes => t.table.escapes = s.table.escapes
  | .openQ => t.outlets.openQ = s.outlets.openQ
  | .closeQ => t.outlets.closeQ = s.outlets.closeQ
  | .lanes => t.outlets.lanes = s.outlets.lanes
  | .gate => t.gate = s.gate
  | .link => t.link = s.link
  | .rxQueue => t.rxQueue = s.rxQueue
  | .state => t.station.state = s.station.state
  | .roster => t.station.roster = s.station.roster ∧ t.station.mode = s.station.mode
  | .store => t.store = s.store

/-- From s to t only the given parts may change. -/
structure KeepsBut (parts : List Part) (s t : State) : Prop where
  same : ∀ p, p ∉ parts → p.Same s t

/-- Nothing done changes no part. -/
theorem KeepsBut.refl (parts : List Part) (s : State) : KeepsBut parts s s := by
  constructor
  intro p _
  cases p <;> simp [Part.Same]

/-- One change after another. -/
theorem KeepsBut.trans {parts : List Part} {s t u : State} (h : KeepsBut parts s t) (h' : KeepsBut parts t u) :
    KeepsBut parts s u := by
  constructor
  intro p hp
  have first := h.same p hp
  have second := h'.same p hp
  cases p with
  | roster => exact ⟨second.1.trans first.1, second.2.trans first.2⟩
  | _ => exact second.trans first

/-- What keeps more keeps less. -/
theorem KeepsBut.mono {parts more : List Part} {s t : State} (h : KeepsBut parts s t) (sub : ∀ p ∈ parts, p ∈ more) :
    KeepsBut more s t := ⟨fun p hp => h.same p fun hp' => hp (sub p hp')⟩

/-- A choice between two outcomes that both keep the parts. -/
theorem KeepsBut.ite {parts : List Part} {s t u : State} {c : Prop} [Decidable c] (h : KeepsBut parts s t)
    (h' : KeepsBut parts s u) : KeepsBut parts s (if c then t else u) := by
  split
  · exact h
  · exact h'

/-- The parts one by one. -/
theorem keepsBut_iff {parts : List Part} {s t : State} : KeepsBut parts s t ↔
    (Part.opts ∉ parts → t.opts = s.opts) ∧ (Part.number ∉ parts → t.station.number = s.station.number) ∧
    (Part.asserted ∉ parts → t.rst.asserted = s.rst.asserted) ∧ (Part.acting ∉ parts → t.rst.acting = s.rst.acting) ∧
    (Part.belt ∉ parts → t.belt = s.belt) ∧ (Part.band ∉ parts → t.scan.band = s.scan.band) ∧
    (Part.overrun ∉ parts → t.scan.sweep.map Sweep.overrun = s.scan.sweep.map Sweep.overrun) ∧
    (Part.pieces ∉ parts → t.former.queue = s.former.queue) ∧ (Part.slots ∉ parts → t.table.slots = s.table.slots) ∧
    (Part.escapes ∉ parts → t.table.escapes = s.table.escapes) ∧
    (Part.openQ ∉ parts → t.outlets.openQ = s.outlets.openQ) ∧
    (Part.closeQ ∉ parts → t.outlets.closeQ = s.outlets.closeQ) ∧
    (Part.lanes ∉ parts → t.outlets.lanes = s.outlets.lanes) ∧ (Part.gate ∉ parts → t.gate = s.gate) ∧
    (Part.link ∉ parts → t.link = s.link) ∧ (Part.rxQueue ∉ parts → t.rxQueue = s.rxQueue) ∧
    (Part.state ∉ parts → t.station.state = s.station.state) ∧
    (Part.roster ∉ parts → t.station.roster = s.station.roster ∧ t.station.mode = s.station.mode) ∧
    (Part.store ∉ parts → t.store = s.store) := by
  constructor
  · rintro ⟨h⟩
    exact ⟨h _, h _, h _, h _, h _, h _, h _, h _, h _, h _, h _, h _, h _, h _, h _, h _, h _, h _, h _⟩
  · rintro ⟨_, _, _, _, _, _, _, _, _, _, _, _, _, _, _, _, _, _, _⟩
    constructor
    intro p
    cases p <;> assumption

/-! ### Frames of the operations -/

/-- Counting changes no part. -/
theorem KeepsBut.bump (parts : List Part) (s : State) (c : Counter) : KeepsBut parts s (s.bump c) := by
  simp [keepsBut_iff]

/-- Link work changes the link. -/
theorem LinkWork.keepsBut {s t : State} (h : LinkWork s t) : KeepsBut [.link] s t := by
  obtain ⟨k, v, rfl⟩ := h.eq
  simp [keepsBut_iff]

/-- Outlet work changes the outlets and the gate. -/
theorem OutletWork.keepsBut {s t : State} (h : OutletWork s t) : KeepsBut [.openQ, .closeQ, .lanes, .gate] s t := by
  obtain ⟨o, g, r, v, rfl⟩ := h.eq
  simp [keepsBut_iff]

/-- Table work changes the slots, the escape watch list, the open queue and the link. -/
theorem TableWork.keepsBut {s t : State} (h : TableWork s t) : KeepsBut [.slots, .escapes, .openQ, .link] s t := by
  obtain ⟨sl, es, q, g, k, v, rfl⟩ := h.eq
  simp [keepsBut_iff]

/-- A request that is taken leaves the queues of the pieces and the receive records. -/
theorem State.takeRequest_keepsBut {s t : State} {c : Claimant} {test : TableRequest → Bool} {f : Flight}
    (h : s.takeRequest c test = some (f, t)) : KeepsBut [.pieces, .rxQueue] s t := by
  obtain ⟨-, ⟨-, rfl⟩ | ⟨-, -, -, -, rfl⟩⟩ := State.takeRequest_cases h
  · simp [keepsBut_iff]
  · obtain ⟨q, x, r, h⟩ := s.popRequest_eq c
    simp [h, keepsBut_iff]

/-- What a request that is taken and served changes (R51). -/
theorem State.request_keepsBut (s : State) (c : Claimant) (test : TableRequest → Bool) :
    KeepsBut [.pieces, .rxQueue, .slots, .escapes, .openQ, .link] s (s.request c test) := by
  rcases s.request_cases c test with ⟨-, h⟩ | ⟨f, t, taken, h⟩ <;> rw [h]
  · exact .refl _ _
  · exact ((State.takeRequest_keepsBut taken).mono (by simp)).trans ((t.serve_work _ _).keepsBut.mono (by simp))

/-- The converter arbiter keeps the band and the overrun list (R17). -/
theorem Scan.arbitrate_keeps (c : Scan) :
    c.arbitrate.band = c.band ∧ c.arbitrate.sweep.map Sweep.overrun = c.sweep.map Sweep.overrun := by
  obtain ⟨w, j, t, sw, aw, h, overrun⟩ := c.arbitrate_eq
  rw [h]
  exact ⟨rfl, overrun⟩

/-- The converter pair's release changes no part (R17). -/
theorem State.releaseConverter_keepsBut (parts : List Part) (s : State) : KeepsBut parts s s.releaseConverter := by
  simp [State.releaseConverter, Scan.release, keepsBut_iff, Scan.arbitrate_keeps]

/-- A row trigger changes the overrun list (R18, R23). -/
theorem State.trigger_keepsBut (s : State) (row : Count) : KeepsBut [.overrun] s (s.trigger row) := by
  unfold State.trigger
  split
  · split <;> simp [keepsBut_iff, Scan.arbitrate_keeps]
  · exact .refl _ _

/-- The row test changes the last row, the overrun list and nothing else of these parts (R10). -/
theorem State.rowTest_keepsBut (s : State) : KeepsBut [.belt, .overrun] s s.rowTest := by
  unfold State.rowTest
  refine KeepsBut.ite (KeepsBut.trans ?_ ((State.trigger_keepsBut _ _).mono (by simp))) (.refl _ _)
  simp [keepsBut_iff]

/-- The row test leaves the belt but for its last row (R10). -/
theorem State.rowTest_belt (s : State) : ∃ r, s.rowTest.belt = { s.belt with lastRow := r } := by
  unfold State.rowTest
  split
  · exact ⟨_, (State.trigger_keepsBut _ _).same .belt (by simp)⟩
  · exact ⟨s.belt.lastRow, rfl⟩

/-- An encoder edge changes the belt, the overrun list, the outlets and the gate (R1, R10, R11). -/
theorem State.encoderEdge_keepsBut (s : State) (a b : Bool) :
    KeepsBut [.belt, .overrun, .openQ, .closeQ, .lanes, .gate] s (s.encoderEdge a b) := by
  have step : ∀ u : State, KeepsBut [.belt, .overrun, .openQ, .closeQ, .lanes, .gate] u u.stepForward := by
    intro u
    refine KeepsBut.trans (KeepsBut.trans ?_ ((State.rowTest_keepsBut _).mono (by simp))) ((State.outletStep_work _ _).keepsBut.mono (by simp))
    simp [keepsBut_iff]
  unfold State.encoderEdge
  refine KeepsBut.trans (t := { s with belt := { s.belt with encA := a, encB := b } }) (by simp [keepsBut_iff]) ?_
  unfold State.takeEdge
  split
  · exact .refl _ _
  · exact KeepsBut.ite (step _) (by simp [keepsBut_iff])
  · exact KeepsBut.ite (by simp [keepsBut_iff]) (by simp [keepsBut_iff])
  · exact .bump ..

/-- A completed auxiliary conversion changes the band and closes lanes (R25, R105). -/
theorem State.takeAux_keepsBut (s : State) (ch : AuxChannel) (v : Nat) :
    KeepsBut [.band, .openQ, .closeQ, .lanes, .gate] s (s.takeAux ch v) := by
  unfold State.takeAux
  split
  · split
    · obtain ⟨b, t, n, h⟩ := s.scan.takeSupply_eq s.opts v
      have band : KeepsBut [.band, .openQ, .closeQ, .lanes, .gate] s { s with scan := s.scan.takeSupply s.opts v } := by
        simp [h, keepsBut_iff]
      exact KeepsBut.ite band (band.trans ((closeExcess_work _ _).keepsBut.mono (by simp)))
    · unfold Scan.takeCoil
      split
      · split <;> simp [keepsBut_iff]
      · simp [keepsBut_iff]
  · exact .refl _ _

/-- A transaction changes what its command's own rule changes. -/
theorem State.transact_keepsBut {parts : List Part} {own : State → State} (acts : ∀ s, KeepsBut parts s (own s)) (s : State)
    (t : Transaction) (needs : Nat) (ok : List Byte → Bool) : KeepsBut parts s (s.transact t needs ok own) := by
  have discard : KeepsBut parts s s.discardResponse := by simp [State.discardResponse, keepsBut_iff]
  have answer : ∀ st, KeepsBut parts s (s.discardResponse.answer st []) := fun st => discard.trans (by simp [keepsBut_iff])
  unfold State.transact
  refine .ite (.refl _ _) ?_
  rcases s.command_cases needs ok t.args own with ⟨-, h⟩ | ⟨-, -, h⟩ | ⟨-, -, -, h⟩ <;> rw [h]
  · exact answer _
  · exact answer _
  · exact discard.trans (acts _)

/-- The state commands, SAMPLE and the reads change no more than the station state, the lanes and the store. -/
theorem State.answer_keepsBut (parts : List Part) (s : State) (st : Status) (data : List Byte) :
    KeepsBut parts s (s.answer st data) := by
  simp [keepsBut_iff]

/-- A change of the roster, and of the mode with it (R168, R169). -/
theorem State.setRoster_keepsBut (s : State) (n : Fin 16) (r : RosterSlot) : KeepsBut [.roster] s (s.setRoster n r) := by
  obtain ⟨m, h, -⟩ := s.setRoster_eq n r
  simp [h, keepsBut_iff]

/-- The filter of a PIECE changes the receive queue (R155, R156). -/
theorem State.takePiece_keepsBut (s : State) (n : Fin 16) (payload : List Byte) (latch : Count) :
    KeepsBut [.rxQueue] s (s.takePiece n payload latch) := by
  have offer : ∀ r : ReceiveRecord, KeepsBut [.rxQueue] s (s.offerRecord r) := by
    intro r
    obtain ⟨q, v, h⟩ := s.offerRecord_eq r
    simp [h, keepsBut_iff]
  unfold State.takePiece
  refine .ite (.refl _ _) ?_
  split
  · exact .bump ..
  · split
    · exact .bump ..
    · exact .ite (offer _) (.bump ..)

/-- A frame of another number changes the roster and the receive queue (R152). -/
theorem State.dispatch_keepsBut (s : State) (n : Fin 16) (kind : Nat) (payload : List Byte) (latch : Count) :
    KeepsBut [.roster, .rxQueue] s (s.dispatch n kind payload latch) := by
  have replaced : ∀ (u : State) (r : RosterSlot), KeepsBut [.roster, .rxQueue] u (u.setRoster n r) :=
    fun u r => (u.setRoster_keepsBut n r).mono (by simp)
  refine (replaced s s.station.roster[n].heard).trans ?_
  refine .ite ?hello (.ite ((State.takePiece_keepsBut ..).mono (by simp)) ?escape)
  case hello =>
    unfold State.takeHello
    split
    · exact replaced ..
    · exact .bump ..
  case escape =>
    unfold State.takeEscape
    split
    · exact .ite (.bump ..) (.refl _ _)
    · exact .bump ..

/-- A valid frame changes the link, the roster and the receive queue (R136, R152). -/
theorem State.validFrame_keepsBut (s : State) (rx : List LineByte) : KeepsBut [.link, .roster, .rxQueue] s (s.validFrame rx) := by
  unfold State.validFrame
  split
  · have ended : KeepsBut [.link, .roster, .rxQueue] s s.endReception := by simp [State.endReception, keepsBut_iff]
    refine ended.trans (.ite ?_ ((State.dispatch_keepsBut ..).mono (by simp)))
    exact .ite (.refl _ _) (by simp [State.endReception, keepsBut_iff])
  · exact .refl _ _

/-- A READ ENTRY takes at most one request from its queue (R177, log 6). -/
theorem State.readEntry_keepsBut (s : State) (inFlight : Option Claimant) (n : Fin 128) (part : Nat) :
    KeepsBut [.pieces, .rxQueue] s (s.readEntry inFlight n part) := by
  have taken : ∀ c, KeepsBut [.pieces, .rxQueue] s (s.startRequest c none) := by
    intro c
    unfold State.startRequest
    refine .ite ?_ (.refl _ _)
    split
    · obtain ⟨q, x, r, h⟩ := s.popRequest_eq c
      simp [h, keepsBut_iff]
    · exact .refl _ _
  unfold State.readEntry
  dsimp only
  split
  · rename_i c
    have begun : KeepsBut [.pieces, .rxQueue] s (if s.table.inFlight.isNone then s.startRequest c none else s) :=
      .ite (taken c) (.refl _ _)
    exact .ite (begun.trans (by simp [keepsBut_iff])) (begun.trans (State.answer_keepsBut ..))
  · exact .ite (by simp [keepsBut_iff]) (State.answer_keepsBut ..)

/-! ### Frames of the commands -/

end Sys2Proof.Machine
namespace Sys2Proof
open Machine

/-- The parts that a command of the running part can change before it is handed on. -/
def Instr.parts : Instr → List Part
  | .encoderEdge .. => [.pieces, .rxQueue, .belt, .overrun, .openQ, .closeQ, .lanes, .gate]
  | .stepSilenceExpiry .. => [.belt]
  | .sweepComplete .. => [.overrun]
  | .auxiliaryConversionComplete .. => [.band, .openQ, .closeQ, .lanes, .gate]
  | .rowRecord .. => [.pieces]
  | .opened .. | .settled .. | .localPiece .. | .receiveRecord .. | .deadlineRequest .. =>
    [.pieces, .rxQueue, .slots, .escapes, .openQ, .link]
  | .maxOnTrip .. => [.closeQ, .lanes]
  | .coolingEnd .. | .testLane .. | .testLaneEnd .. => [.lanes]
  | .switchEvent .. | .travelTimeout .. => [.gate]
  | .busFree .. | .startEdge .. | .arbitrationLost .. | .latchCount .. | .bitError .. | .breakEnd .. | .transmitCompletion ..
  | .lineFault .. | .lineFaultEnd .. | .frameDiscard .. | .helloTimerExpiry .. => [.link]
  | .validFrame .. => [.link, .roster, .rxQueue]
  | .joiningTimerExpiry .. | .start .. | .pause .. => [.state]
  | .resume .. => [.state, .lanes]
  | .quiet .. | .absent .. => [.roster]
  | .readEntry .. => [.pieces, .rxQueue]
  | .writeOptions .. => [.store]
  | .auxiliaryTick .. | .sampleComplete .. | .readStatus .. | .readCause .. | .readRoster .. | .readEntryDeferred ..
  | .readCounters .. | .readAndClearCounters .. | .readOptions .. | .reset .. | .sample .. | .unknownCommandCode ..
  | .powerOn .. | .coreSupplyDrop .. | .resetPin .. | .optionWriteCompleted .. | .supplyRise .. | .resetPinHigh ..
  | .resetEnd .. => []

end Sys2Proof
namespace Sys2Proof.Machine

/-- A command of the running part changes its own parts alone before it is handed on. -/
theorem State.act_keepsBut {c : Instr} (other : c.actsInReset = false) (e : State) : KeepsBut c.parts e (e.act c) := by
  cases c with
  | encoderEdge l a b =>
    obtain ⟨q, x, r, f, t, h⟩ := e.readAhead_eq l.between
    have ahead : KeepsBut [.pieces, .rxQueue] e (e.readAhead l.between) := by simp [h, keepsBut_iff]
    exact (ahead.mono (by simp [Instr.parts])).trans ((State.encoderEdge_keepsBut _ a b).mono (by simp [Instr.parts]))
  | stepSilenceExpiry l =>
    simp only [State.act, State.silenceExpiry]
    split
    · exact .ite (.refl _ _) (.ite (by simp [keepsBut_iff, Instr.parts]) (by simp [keepsBut_iff, Instr.parts]))
    · exact .refl _ _
  | sweepComplete l raw curtain =>
    simp only [State.act, State.completeSweep]
    split
    · refine .ite ?_ (.refl _ _)
      simp [State.sweepDone, Scan.release, keepsBut_iff, Instr.parts, Scan.arbitrate_keeps]
    · exact .refl _ _
  | auxiliaryTick l =>
    refine .ite ?_ (.refl _ _)
    unfold Scan.tick
    dsimp only
    split <;> simp [keepsBut_iff, Instr.parts, Scan.arbitrate_keeps]
  | auxiliaryConversionComplete l result =>
    simp only [State.act, State.completeAux]
    split
    · exact .ite ((State.takeAux_keepsBut ..).trans (State.releaseConverter_keepsBut ..)) (.refl _ _)
    · exact .refl _ _
  | sampleComplete l result =>
    simp only [State.act, State.completeSample]
    split
    · exact .ite ((KeepsBut.ite (by simp [keepsBut_iff]) (.refl _ _)).trans (State.releaseConverter_keepsBut ..)) (.refl _ _)
    · exact .refl _ _
  | rowRecord l =>
    have offers : ∀ s : State, KeepsBut [.pieces] s (s.makeOffers l.left) := fun s => by
      obtain ⟨⟨q, v, h⟩, -⟩ := s.makeOffers_eq l.left
      simp [h, keepsBut_iff]
    simp only [State.act, State.nextRow]
    split
    · exact KeepsBut.trans (by simp [State.takeRow, keepsBut_iff, Instr.parts]) (offers _)
    · exact offers _
  | opened | settled | localPiece | receiveRecord | deadlineRequest => exact e.request_keepsBut _ _
  | maxOnTrip l lane => exact .ite (by simp [State.takeLane, keepsBut_iff, Instr.parts]) (.refl _ _)
  | coolingEnd l lane => exact .ite (by simp [State.setLane, keepsBut_iff, Instr.parts]) (.refl _ _)
  | testLaneEnd l lane => exact .ite (by simp [State.setLane, keepsBut_iff, Instr.parts]) (.refl _ _)
  | testLane t =>
    refine State.transact_keepsBut (fun s => ?_) e t _ _
    simp only [State.testLaneCommand]
    split
    · exact .ite (State.answer_keepsBut ..) (by simp [State.setLane, keepsBut_iff, Instr.parts])
    · exact State.answer_keepsBut ..
  | switchEvent l sw high =>
    refine .ite ?_ (.refl _ _)
    unfold State.switched State.enterGateFault
    split <;> split <;> (try split) <;> simp [keepsBut_iff, Instr.parts]
  | travelTimeout l => exact .ite (by simp [State.enterGateFault, keepsBut_iff, Instr.parts]) (.refl _ _)
  | busFree l => exact e.attempt_work.keepsBut
  | startEdge | arbitrationLost | latchCount | breakEnd | transmitCompletion | lineFaultEnd =>
    exact (LinkWork.ofLink ..).keepsBut
  | bitError l bit => exact .ite (by simp [keepsBut_iff, Instr.parts]) (.refl _ _)
  | lineFault l => exact .ite (by simp [keepsBut_iff, Instr.parts]) (.refl _ _)
  | frameDiscard l rx =>
    refine .ite ?_ (.refl _ _)
    split
    · simp [keepsBut_iff, Instr.parts]
    · exact .refl _ _
    · exact .refl _ _
  | validFrame l rx => exact e.validFrame_keepsBut rx
  | joiningTimerExpiry l =>
    simp only [State.act, State.joiningExpiry]
    split
    · exact .ite (by simp [keepsBut_iff, Instr.parts]) (.refl _ _)
    · exact .refl _ _
  | helloTimerExpiry l =>
    simp only [State.act, State.helloExpiry]
    split
    · exact .ite (KeepsBut.trans (by simp [keepsBut_iff, Instr.parts]) (State.requestHello_work _).keepsBut) (.refl _ _)
    · exact .refl _ _
  | quiet l slot =>
    simp only [State.act, State.quietSlot]
    split
    · exact .ite (e.setRoster_keepsBut _ _) (.refl _ _)
    · exact .refl _ _
  | absent l slot =>
    simp only [State.act, State.absentSlot]
    split
    · exact .ite (e.setRoster_keepsBut _ _) (.refl _ _)
    · exact .refl _ _
  | readStatus t =>
    exact State.transact_keepsBut (fun s => by simp [State.readStatus, keepsBut_iff]) e t _ _
  | readCause t =>
    exact State.transact_keepsBut (fun s => by simp [State.readCause, Rst.acting, keepsBut_iff]) e t _ _
  | readRoster t => exact State.transact_keepsBut (fun s => s.answer_keepsBut ..) e t _ _
  | readCounters t => exact State.transact_keepsBut (fun s => s.answer_keepsBut ..) e t _ _
  | readOptions t => exact State.transact_keepsBut (fun s => s.answer_keepsBut ..) e t _ _
  | readAndClearCounters t =>
    exact State.transact_keepsBut (fun s => by simp [keepsBut_iff]) e t _ _
  | readEntry t inFlight => exact State.transact_keepsBut (fun s => s.readEntry_keepsBut _ _ _) e t _ _
  | readEntryDeferred l =>
    simp only [State.act, State.answerDeferred]
    split
    · simp [keepsBut_iff]
    · exact .refl _ _
  | writeOptions t =>
    refine State.transact_keepsBut (fun s => ?_) e t _ _
    simp only [State.writeOptions]
    refine .ite (s.answer_keepsBut ..) (.ite ?_ (s.answer_keepsBut ..))
    simp [keepsBut_iff, Instr.parts]
  | start t =>
    refine State.transact_keepsBut (fun s => ?_) e t _ _
    exact .ite (by simp [keepsBut_iff, Instr.parts]) (s.answer_keepsBut ..)
  | pause t =>
    refine State.transact_keepsBut (fun s => ?_) e t _ _
    exact .ite (by simp [State.setStation, keepsBut_iff, Instr.parts]) (s.answer_keepsBut ..)
  | resume t =>
    refine State.transact_keepsBut (fun s => ?_) e t _ _
    exact .ite (by simp [State.setStation, keepsBut_iff, Instr.parts]) (s.answer_keepsBut ..)
  | reset t => exact State.transact_keepsBut (fun s => .refl _ _) e t _ _
  | sample t =>
    refine State.transact_keepsBut (fun s => ?_) e t _ _
    simp [State.sampleCommand, keepsBut_iff, Scan.arbitrate_keeps]
  | unknownCommandCode t code =>
    refine .ite (.refl _ _) ?_
    rcases e.command_cases 0 (fun _ => false) t.args id with ⟨-, h⟩ | ⟨-, -, h⟩ | ⟨-, -, none, -⟩
    · simp [h, State.discardResponse, keepsBut_iff]
    · simp [h, State.discardResponse, keepsBut_iff]
    · cases none
  | powerOn | coreSupplyDrop | resetPin | optionWriteCompleted | supplyRise | resetPinHigh | resetEnd => cases other

end Sys2Proof.Machine
end

section
/-! PROOFS. What the outlets' work at a step and the hand-on keep, and the lanes' promise. -/

namespace Sys2Proof.Machine

/-! ### What the hand-on and the outlets' work keep -/

/-- After the beginning of blocking an event hands on the link's work alone. -/
theorem handOn_keepsBut (b a : State) : KeepsBut [.link] (blockIfBegun b a) (handOn b a) := by
  have attends : KeepsBut [.link] (blockIfBegun b a) (attend b (blockIfBegun b a)) := by simp [keepsBut_iff]
  have works := ((announce_work b _).trans (attemptIfReady_work b _)).keepsBut (s := attend b (blockIfBegun b a))
  refine (attends.trans works).trans ?_
  obtain ⟨c, marked⟩ := markTied_eq b (attemptIfReady b (announce b (attend b (blockIfBegun b a))))
  unfold handOn
  dsimp only
  rw [marked]
  simp [keepsBut_iff]

/-- Blocking is read from the station state, the belt state, the band, the outlet kind and whether the gate is in FAULT (R95). -/
theorem State.blocked_congr {s t : State} (opts : t.opts = s.opts) (state : t.station.state = s.station.state)
    (belt : t.belt.state = s.belt.state) (band : t.scan.band = s.scan.band)
    (gate : t.gate.state = .fault ↔ s.gate.state = .fault) : t.blocked = s.blocked := by
  simp only [State.blocked, State.gateFaulted, opts, state, belt, band, gate]

/-- Outlet work that leaves a gate in FAULT, and any other out of it, leaves blocking as it is. -/
theorem OutletWork.blocked {s t : State} (h : OutletWork s t) (gate : t.gate.state = .fault ↔ s.gate.state = .fault) :
    t.blocked = s.blocked := by
  obtain ⟨o, g, r, v, rfl⟩ := h.eq
  exact State.blocked_congr rfl rfl rfl rfl gate

/-- A gate that is called out is not in FAULT (R114). -/
theorem Gate.callOut_ne_fault (g : Gate) (count : Count) (L : Nat) : (g.callOut count L).state ≠ .fault := by
  unfold Gate.callOut; dsimp only; split <;> simp

/-- A holder more takes no gate into or out of FAULT (R114). -/
theorem Gate.takeHolder_fault (g : Gate) (count : Count) (L : Nat) :
    (g.takeHolder count L).state = .fault ↔ g.state = .fault := by
  unfold Gate.takeHolder
  dsimp only
  split
  · rename_i h; simp [h, Gate.callOut_ne_fault]
  · rename_i h; simp [h, Gate.callOut_ne_fault]
  · rfl
  · rfl
  · rfl

/-- An open event leaves blocking as it is (R99, R114). -/
theorem State.openEvent_blocked (s : State) (L : Nat) (w : Window) : (s.openEvent L w).blocked = s.blocked := by
  refine (s.openEvent_work L w).blocked ?_
  unfold State.openEvent
  split
  · unfold State.laneOpenEvent
    split
    · rfl
    · dsimp only; split <;> rfl
  · unfold State.gateOpenEvent
    split
    · rfl
    · exact Gate.takeHolder_fault ..
  · rfl

/-- What the acts of the outlets at a step keep, the outlets' work at a step keeps (R94, R97, R98, R113, R118): opens are
taken only on a MOVING belt where the outlets are not blocked. -/
theorem State.outletStep_keeps {P : State → Prop} (queue : ∀ s q, P s → P (s.setOpenQ q))
    (expire : ∀ s c, P s → P { s with gate := s.gate.expire c }) (deny : ∀ s r, P s → P (s.issue r))
    (opens : ∀ s L w, s.belt.state = .moving → s.blocked = false → P s → P (s.openEvent L w))
    (closes : ∀ s L isDue fresh, P s → P ((splitClosing isDue fresh s.outlets.closeQ).1.foldl
      (fun s w => s.closeEvent L w) (s.setCloseQ (splitClosing isDue fresh s.outlets.closeQ).2)))
    (hold : ∀ s L, P s → P (s.holdStep L)) (s : State) (became : Bool) (holds : P s) : P (s.outletStep became) := by
  have resolves : ∀ L q u, u.belt.state = .moving → P u → P (frontPass (fun w => u.due L w.pOpen) (State.resolve L) q u) := by
    intro L q u moves hu
    refine (frontPass_keeps (P := fun v => v.belt.state = .moving ∧ P v) (fun v q h => ⟨h.1, queue v q h.2⟩)
      (fun w v h => ?_) q u ⟨moves, hu⟩).2
    have belt : (State.resolve L w v).belt = v.belt := by
      obtain ⟨_, _, _, _, work⟩ := (State.resolve_work L w v).eq
      rw [work]
    refine ⟨(congrArg Belt.state belt).trans h.1, ?_⟩
    unfold State.resolve
    split
    · exact deny _ _ h.2
    · split
      · exact deny _ _ h.2
      · exact opens _ _ _ h.1 (Bool.eq_false_of_not_eq_true ‹_›) h.2
  have passes : ∀ u L, u.belt.state = .moving → u.blocked = false → P u → P (u.duePasses L) := by
    intro u L moves free hu
    have opened := frontPass_keeps (P := fun v => v.belt.state = .moving ∧ v.blocked = false ∧ P v)
      (isDue := fun w => u.due L w.pOpen) (act := fun w v => v.openEvent L w)
      (fun v q h => ⟨h.1, h.2.1, queue v q h.2.2⟩)
      (fun w v h => by
        obtain ⟨moves, free, hv⟩ := h
        obtain ⟨_, _, _, _, work⟩ := (v.openEvent_work L w).eq
        exact ⟨by rw [work]; exact moves, (v.openEvent_blocked L w).trans free, opens v L w moves free hv⟩)
      u.outlets.openQ u ⟨moves, free, hu⟩
    exact closes _ L _ _ opened.2.2
  have held : ∀ L u, P u → P (if u.blocked = true then u else u.holdStep L) := by
    intro L u hu
    split
    · exact hu
    · exact hold _ _ hu
  have start := expire s s.belt.count holds
  unfold State.outletStep
  dsimp only
  split
  case isTrue moves =>
    refine held _ _ ?_
    split
    · exact resolves _ _ _ moves start
    · split
      · exact frontPass_keeps queue (fun w u hu => deny u _ hu) _ _ start
      · exact passes _ _ moves (Bool.eq_false_of_not_eq_true ‹_›) start
  case isFalse => exact start

/-- What a change of belt, scan unit and counters keeps, with the outlets' work at a step, an encoder edge keeps. -/
theorem State.encoderEdge_keeps {P : State → Prop} (tracker : ∀ s b c v, c.band = s.scan.band → P s →
      P { s with belt := b, scan := c, counters := v })
    (outlets : ∀ s became, P s → P (s.outletStep became)) (s : State) (a b : Bool) (holds : P s) : P (s.encoderEdge a b) := by
  have row : ∀ u : State, P u → P u.rowTest := by
    intro u hu
    unfold State.rowTest
    split
    · generalize ht : ({ u with belt := { u.belt with lastRow := some u.belt.count } } : State) = t
      have hb : (t.trigger u.belt.count).scan.band = t.scan.band := (t.trigger_keepsBut _).same .band (by simp)
      obtain ⟨⟨c, v, h⟩, -⟩ := t.trigger_eq u.belt.count
      rw [h] at hb ⊢
      subst ht
      exact tracker u _ c v hb hu
    · exact hu
  have start : P { s with belt := { s.belt with encA := a, encB := b } } := tracker s _ s.scan s.counters rfl holds
  unfold State.encoderEdge State.takeEdge
  split
  · exact start
  · split
    · exact outlets _ _ (row _ (tracker s _ s.scan s.counters rfl holds))
    · exact tracker s _ s.scan s.counters rfl holds
  · split
    · exact tracker s _ s.scan s.counters rfl holds
    · exact tracker s _ s.scan s.counters rfl holds
  · exact tracker s _ s.scan _ rfl holds

/-! ### The lanes' promise (R105) -/

/-- Where every OPEN lane was OPEN, no more lanes are OPEN. -/
theorem Outlets.openCount_le {o o' : Outlets}
    (opened : ∀ n : Fin 32, o'.lanes[n].state = .opened → o.lanes[n].state = .opened) : o'.openCount ≤ o.openCount :=
  List.countP_mono_left fun n _ h => by simpa using opened n (by simpa using h)

/-- The budget is read from the options and the band (R99). -/
theorem State.budget_congr {s t : State} (opts : t.opts = s.opts) (band : t.scan.band = s.scan.band) : t.budget = s.budget := by
  simp only [State.budget, opts, band]

/-- With the same budget, where every OPEN lane was OPEN, the lanes stay within the budget. -/
theorem State.LanesWithinBudget.of_opened {s t : State} (h : s.LanesWithinBudget) (opts : t.opts = s.opts)
    (band : t.scan.band = s.scan.band)
    (opened : ∀ n : Fin 32, t.outlets.lanes[n].state = .opened → s.outlets.lanes[n].state = .opened) :
    t.LanesWithinBudget := by
  have := Outlets.openCount_le opened
  have := State.budget_congr opts band
  unfold State.LanesWithinBudget at *
  omega

/-- With the same budget and lanes, the lanes stay within the budget. -/
theorem State.LanesWithinBudget.of_lanes {s t : State} (h : s.LanesWithinBudget) (opts : t.opts = s.opts)
    (band : t.scan.band = s.scan.band) (lanes : t.outlets.lanes = s.outlets.lanes) : t.LanesWithinBudget :=
  h.of_opened opts band fun n open' => by rwa [lanes] at open'

/-- The lanes of one record replaced by one that is not OPEN, or whose lane was. -/
theorem opened_of_set {lanes : Vector Lane 32} {n : Fin 32} {l : Lane} (was : l.state = .opened → lanes[n].state = .opened)
    (m : Fin 32) (h : (lanes.set n l)[m].state = .opened) : lanes[m].state = .opened := by
  by_cases e : n = m
  · subst e
    exact was (by simpa using h)
  · have : n.val ≠ m.val := fun h => e (Fin.ext h)
    simpa [this] using h

/-- The lanes whose holders leave are OPEN only if they were (R93, R102). -/
theorem opened_of_releaseLanes {g : LaneSet} {lanes : Vector Lane 32} (n : Fin 32)
    (h : (releaseLanes g lanes)[n].state = .opened) : lanes[n].state = .opened := by
  rw [getElem_releaseLanes] at h
  split at h
  · exact Lane.release_opened h
  · exact h

/-- A grant opens no more lanes than there is room for (R99, R100). -/
theorem grantLanes_openCount (now : TimeBase) (avail : Nat) (sp : Span) (o : Outlets) :
    Outlets.openCount { o with lanes := (grantLanes now avail sp o.lanes).lanes } ≤ o.openCount + avail := by
  have visits : ∀ (ns : List (Fin 32)) (g : GrantResult),
      Outlets.openCount { o with lanes := (ns.foldl (grantVisit now) g).lanes } +
        (ns.foldl (grantVisit now) g).avail = Outlets.openCount { o with lanes := g.lanes } + g.avail := by
    intro ns
    induction ns with
    | nil => exact fun _ => rfl
    | cons n ns ih =>
      intro g
      rw [List.foldl_cons, ih]
      have counted := fun l => Outlets.openCount_set { o with lanes := g.lanes } n l
      dsimp only at counted
      rcases grantVisit_cases now g n with ⟨state, h⟩ | ⟨state, room, h⟩ | ⟨-, h⟩ <;> rw [h]
      · have := counted { g.lanes[n] with holders := g.lanes[n].holders + 1 }
        simp only [state, decide_true] at this ⊢
        omega
      · have := counted (g.lanes[n].openAt now)
        simp only [state, Lane.openAt, decide_true, bit, reduceCtorEq, decide_false, if_true, Bool.false_eq_true,
          if_false] at this ⊢
        omega
  have := visits (visitOrder sp) ⟨o.lanes, avail, 0, false⟩
  exact (Nat.le_add_right _ _).trans this.le

/-- The open event of a window keeps the lanes within the budget (R99, R100). -/
theorem State.openEvent_withinBudget {s : State} (h : s.LanesWithinBudget) (L : Nat) (w : Window) :
    (s.openEvent L w).LanesWithinBudget := by
  unfold State.openEvent
  split
  · unfold State.laneOpenEvent
    split
    · exact h
    · dsimp only
      split
      · exact h
      · have := grantLanes_openCount s.timeBase s.avail (w.span.getD ⟨0, 0, 0⟩) s.outlets
        refine (Nat.le_of_eq (Outlets.openCount_congr rfl)).trans (this.trans ?_)
        unfold State.LanesWithinBudget at h
        unfold State.avail
        exact Nat.le_of_eq (Nat.add_sub_cancel' h)
  · unfold State.gateOpenEvent
    split <;> exact h
  · exact h

/-- The close events of windows keep the lanes within the budget (R102). -/
theorem foldl_closeEvent_withinBudget {L : Nat} : ∀ (ws : List Window) {s : State}, s.LanesWithinBudget →
    (ws.foldl (fun s w => s.closeEvent L w) s).LanesWithinBudget
  | [], _, h => h
  | w :: ws, s, h => by
    refine foldl_closeEvent_withinBudget ws (s := s.closeEvent L w) ?_
    unfold State.closeEvent
    split
    · exact State.LanesWithinBudget.of_opened h rfl rfl fun n => opened_of_releaseLanes n
    · have work : KeepsBut [.gate] s (s.gateCloseEvent L w) := by
        unfold State.gateCloseEvent
        dsimp only
        split
        · split
          · simp [keepsBut_iff]
          · simp [keepsBut_iff]
        · simp [keepsBut_iff]
      exact h.of_lanes (work.same .opts (by simp)) (work.same .band (by simp)) (work.same .lanes (by simp))
    · exact h

/-- The outlets' work at a step keeps the lanes within the budget (R94, R99, R102). -/
theorem State.outletStep_withinBudget (s : State) (became : Bool) (h : s.LanesWithinBudget) :
    (s.outletStep became).LanesWithinBudget :=
  State.outletStep_keeps (P := State.LanesWithinBudget) (fun _ _ h => h) (fun _ _ h => h) (fun _ _ h => h)
    (fun _ L w _ _ h => State.openEvent_withinBudget h L w) (fun _ _ _ _ h => foldl_closeEvent_withinBudget _ h)
    (fun s L h => by
      unfold State.holdStep
      split <;> exact h) s became h

/-- Closing k lanes leaves as many fewer OPEN, or none (R105). -/
theorem closeExcess_openCount : ∀ (k : Nat) (s : State), (closeExcess k s).outlets.openCount ≤ s.outlets.openCount - k
  | 0, s => Nat.le_refl _
  | k + 1, s => by
    unfold closeExcess
    split
    · rename_i n last
      refine (closeExcess_openCount k _).trans ?_
      have closed := Outlets.openCount_set s.outlets n .afterReset
      have taken : ((s.takeLane n .afterReset).bump .bandDropClose).outlets.openCount =
          Outlets.openCount { s.outlets with lanes := s.outlets.lanes.set n .afterReset } := Outlets.openCount_congr rfl
      rw [State.lastOpened_opened last, ← taken] at closed
      simp only [Lane.afterReset, bit, decide_true, reduceCtorEq, decide_false, if_true, Bool.false_eq_true, if_false]
        at closed
      unfold Lane.afterReset
      omega
    · rename_i none
      rw [State.lastOpened_none.1 none]
      exact Nat.zero_le _

/-- A drop to the budget leaves the lanes within it (R105). -/
theorem State.dropToBudget_withinBudget (s : State) : s.dropToBudget.LanesWithinBudget := by
  have count := closeExcess_openCount (s.outlets.openCount - s.budget) s
  have work := (closeExcess_work (s.outlets.openCount - s.budget) s).keepsBut
  have budget : s.dropToBudget.budget = s.budget :=
    State.budget_congr (work.same .opts (by simp)) (work.same .band (by simp))
  unfold State.LanesWithinBudget
  rw [budget]
  unfold State.dropToBudget
  omega

/-- An auxiliary value keeps the lanes within the budget (R27, R105). -/
theorem State.takeAux_withinBudget {s : State} (h : s.LanesWithinBudget) (ch : AuxChannel) (v : Nat) :
    (s.takeAux ch v).LanesWithinBudget := by
  unfold State.takeAux
  split
  · split
    · dsimp only
      split
      · rename_i same
        exact h.of_lanes rfl same rfl
      · exact State.dropToBudget_withinBudget _
    · refine h.of_lanes rfl ?_ rfl
      unfold Scan.takeCoil
      dsimp only
      split
      · split <;> rfl
      · rfl
  · exact h

/-- The beginning of blocking opens no lane (R96). -/
theorem State.beginBlocking_withinBudget {s : State} (h : s.LanesWithinBudget) : s.beginBlocking.LanesWithinBudget := by
  have cuts : ∀ (ws : List Window) (u : State), u.LanesWithinBudget → (ws.foldl State.cutWindow u).LanesWithinBudget := by
    intro ws
    induction ws with
    | nil => exact fun _ h => h
    | cons w ws ih =>
      exact fun u hu => ih _ (State.LanesWithinBudget.of_opened hu rfl rfl fun n => opened_of_releaseLanes n)
  have cut := cuts s.outlets.closeQ (s.setCloseQ []) h
  unfold State.beginBlocking
  dsimp only
  split
  · exact cut
  · exact cut

/-- A test lane opens a lane only where the budget has room (R106). -/
theorem State.testLaneCommand_withinBudget {s : State} (h : s.LanesWithinBudget) (n : Nat) :
    (s.testLaneCommand n).LanesWithinBudget := by
  unfold State.testLaneCommand
  split
  · rename_i inRange
    dsimp only
    split
    · exact h
    · rename_i accepted
      push Not at accepted
      obtain ⟨-, -, closed, room⟩ := accepted
      have := Outlets.openCount_set s.outlets ⟨n, inRange⟩ (s.outlets.lanes[(⟨n, inRange⟩ : Fin 32)].testing s.timeBase)
      simp only [closed, Lane.testing, Lane.openAt, bit, reduceCtorEq, decide_false, decide_true, if_true,
        Bool.false_eq_true, if_false] at this
      have opened : ((s.setLane ⟨n, inRange⟩ (s.outlets.lanes[(⟨n, inRange⟩ : Fin 32)].testing s.timeBase)).answer
          .ok []).outlets.openCount = s.outlets.openCount + 1 := this
      unfold State.avail at room
      unfold State.LanesWithinBudget
      rw [opened]
      exact Nat.succ_le_of_lt (Nat.lt_of_sub_ne_zero room)
  · exact h

/-- What a command's own rule keeps, its transaction keeps, if the promise is not about the port or the converter jobs. -/
theorem State.transact_keeps {P : State → Prop} (answer : ∀ s st d, P s → P (s.answer st d))
    (discard : ∀ s, P s → P s.discardResponse) {own : State → State} (acts : ∀ s, P s → P (own s)) {s : State} (holds : P s)
    (t : Transaction) (needs : Nat) (ok : List Byte → Bool) : P (s.transact t needs ok own) := by
  unfold State.transact
  split
  · exact holds
  · rcases s.command_cases needs ok t.args own with ⟨-, h⟩ | ⟨-, -, h⟩ | ⟨-, -, -, h⟩ <;> rw [h]
    · exact answer _ _ _ (discard _ holds)
    · exact answer _ _ _ (discard _ holds)
    · exact acts _ (discard _ holds)

/-- Every command keeps the lanes within the budget before it is handed on. -/
theorem State.act_withinBudget {c : Instr} (other : c.actsInReset = false) {e : State} (h : e.LanesWithinBudget) :
    (e.act c).LanesWithinBudget := by
  have frame := State.act_keepsBut other e
  have opts : Part.opts ∉ c.parts → (e.act c).opts = e.opts := frame.same .opts
  have band : Part.band ∉ c.parts → (e.act c).scan.band = e.scan.band := frame.same .band
  have lanes : Part.lanes ∉ c.parts → (e.act c).outlets.lanes = e.outlets.lanes := frame.same .lanes
  clear frame
  cases c with
  | encoderEdge l a b =>
    refine State.encoderEdge_keeps (P := State.LanesWithinBudget) (fun s _ _ _ band hs => hs.of_lanes rfl band rfl)
      State.outletStep_withinBudget _ a b ?_
    obtain ⟨_, _, _, _, _, ahead⟩ := e.readAhead_eq l.between
    rw [ahead]
    exact h
  | auxiliaryConversionComplete l result =>
    simp only [State.act, State.completeAux]
    split
    · rename_i ch _
      split
      · have release := State.releaseConverter_keepsBut [] (e.takeAux ch (auxValue result))
        exact (State.takeAux_withinBudget h ch _).of_lanes (release.same .opts (by simp)) (release.same .band (by simp))
          (release.same .lanes (by simp))
      · exact h
    · exact h
  | maxOnTrip l lane =>
    simp only [State.act, State.tripLane]
    split
    · exact State.LanesWithinBudget.of_opened h rfl rfl fun n => opened_of_set (fun h => by simp [Lane.tripped] at h) n
    · exact h
  | coolingEnd l lane =>
    simp only [State.act, State.endCooling]
    split
    · exact State.LanesWithinBudget.of_opened h rfl rfl fun n => opened_of_set (fun h => by simp [Lane.afterReset] at h) n
    · exact h
  | testLaneEnd l lane =>
    simp only [State.act, State.endTestLane]
    split
    · exact State.LanesWithinBudget.of_opened h rfl rfl fun n => opened_of_set Lane.endTest_opened n
    · exact h
  | testLane t =>
    exact State.transact_keeps (P := State.LanesWithinBudget) (fun _ _ _ h => h) (fun _ h => h)
      (fun s hs => s.testLaneCommand_withinBudget hs _) h t _ _
  | resume t =>
    refine State.transact_keeps (P := State.LanesWithinBudget) (fun _ _ _ h => h) (fun _ h => h) (fun s hs => ?_) h t _ _
    unfold State.resumeCommand
    split
    · refine hs.of_opened (by simp [State.setStation]) (by simp [State.setStation]) fun n ended => ?_
      exact Lane.endTest_opened (by simpa [State.setStation] using ended)
    · exact hs
  | powerOn | coreSupplyDrop | resetPin | optionWriteCompleted | supplyRise | resetPinHigh | resetEnd => cases other
  | _ =>
    exact h.of_lanes (opts (by simp [Instr.parts])) (band (by simp [Instr.parts])) (lanes (by simp [Instr.parts]))

/-- No lane is OPEN while reset is asserted and after it (R111). -/
theorem State.withinBudget_of_afterReset {s : State} (h : s.outlets = .afterReset) : s.LanesWithinBudget := by
  have none : Outlets.afterReset.openCount = 0 := by decide
  unfold State.LanesWithinBudget
  rw [h, none]
  exact Nat.zero_le _

/-- Time keeps the lanes within the budget (R107). -/
theorem State.pass_withinBudget {s : State} (v : Level) (n : Nat) (h : s.LanesWithinBudget) :
    (s.pass v n).LanesWithinBudget := by
  unfold State.pass
  split
  · exact h
  · split
    · exact h
    · exact State.LanesWithinBudget.of_opened h rfl rfl fun m => by simp [Outlets.pass, Lane.pass]

/-- Settles O54: time and the acts of the outlets, the scan unit and the port keep the lanes within the budget, the
beginning of blocking opens none, and a reset leaves none OPEN. -/
theorem lanesStayWithinBudget : Obligations.LanesStayWithinBudget := by
  unfold Obligations.LanesStayWithinBudget
  intro s t holds next
  refine step_keeps (P := State.LanesWithinBudget) (fun _ _ h => h) (fun _ v n h => State.pass_withinBudget v n h) ?event ?logic
    (fun _ _ => State.withinBudget_of_afterReset rfl) holds next
  case event =>
    intro c e _ other h
    have acted := State.act_withinBudget other h
    have blocked : (blockIfBegun e (e.act c)).LanesWithinBudget := by
      unfold blockIfBegun
      split
      · exact State.beginBlocking_withinBudget acted
      · exact acted
    have frame := handOn_keepsBut e (e.act c)
    exact blocked.of_lanes (frame.same .opts (by simp)) (frame.same .band (by simp)) (frame.same .lanes (by simp))
  case logic =>
    intro c e acts h
    cases c with
    | powerOn | coreSupplyDrop | resetPin => exact State.withinBudget_of_afterReset rfl
    | supplyRise | resetPinHigh => exact h
    | optionWriteCompleted =>
      simp only [State.act, State.writeCompleted]
      split
      · exact State.withinBudget_of_afterReset rfl
      · exact h
    | resetEnd l pins =>
      rcases e.endReset_cases pins with ⟨-, ends⟩ | ⟨-, ends⟩ <;> rw [State.act, ends]
      · exact State.withinBudget_of_afterReset rfl
      · exact h
    | _ => cases acts

end Sys2Proof.Machine
end

section
/-! PROOFS. The gate's promises: the holder count, and the divert command only on a MOVING belt that is not blocked. -/

namespace Sys2Proof.Machine

/-! ### What the gate's own acts do to its state -/

/-- The gate stays as it is, or is released (R117, R118, R119). -/
def Gate.Released (g g' : Gate) : Prop :=
  g'.state = g.state ∨ (g.state.commanded = true ∧ g'.state.commanded = false ∧ g'.state ≠ .fault)

/-- A gate that is sent back is at REST or MOVING-BACK (R117). -/
theorem Gate.sendBack_state (g : Gate) (count : Count) (L : Nat) :
    (g.sendBack count L).state = .rest ∨ (g.sendBack count L).state = .movingBack := by
  unfold Gate.sendBack
  dsimp only
  split
  · exact .inl rfl
  · exact .inr rfl

/-- A gate that is commanded out and sent back is released. -/
theorem Gate.sendBack_released {g : Gate} (out : g.state.commanded = true) (count : Count) (L : Nat) :
    g.Released (g.sendBack count L) := by
  refine .inr ⟨out, g.sendBack_commanded count L, ?_⟩
  rcases g.sendBack_state count L with h | h <;> simp [h]

/-- A gate in FAULT commands nothing. -/
theorem Gate.Released.fault {g g' : Gate} (h : g.Released g') : g'.state = .fault ↔ g.state = .fault := by
  rcases h with same | ⟨out, -, notFault⟩
  · rw [same]
  · exact ⟨fun h => absurd h notFault, fun h => by simp [h, GateState.commanded] at out⟩

/-- The close event of a gate window takes a holder, and leaves the gate or releases it (R117). -/
theorem State.gateCloseEvent_gate (s : State) (L : Nat) (w : Window) :
    (s.gateCloseEvent L w).gate.holders = s.gate.holders - 1 ∧ s.gate.Released (s.gateCloseEvent L w).gate ∧
      (s.gateCloseEvent L w).outlets = s.outlets := by
  unfold State.gateCloseEvent
  dsimp only
  split
  case isTrue last =>
    split
    · exact ⟨rfl, .inl rfl, rfl⟩
    · exact ⟨Gate.sendBack_holders .., Gate.sendBack_released (g := { s.gate with holders := s.gate.holders - 1 }) last.2 .., rfl⟩
  case isFalse => exact ⟨rfl, .inl rfl, rfl⟩

/-! ### The two halves of the promise -/

/-- On a GATE station the holder count is the number of given windows beside the close queue (R112). -/
def State.GateHeld (s : State) (more : Nat) : Prop := s.opts.kind = .gate → s.gate.holders = more + s.outlets.closeQ.length

/-- The divert command is asserted only on an unblocked GATE station with a MOVING belt, and the gate of any other station is at
REST (R112, R119). -/
def State.GateGuarded (s : State) : Prop :=
  (s.gate.state.commanded = true → s.opts.kind = .gate ∧ s.blocked = false ∧ s.belt.state = .moving) ∧
    (s.opts.kind ≠ .gate → s.gate.state = .rest)

/-- The gate's promises are the two halves. -/
theorem State.gateSound_iff (s : State) : s.GateSound ↔ s.GateHeld 0 ∧ s.GateGuarded := by
  simp only [State.GateHeld, State.GateGuarded, Nat.zero_add]

/-- Outlet work that leaves the gate or releases it keeps it guarded. -/
theorem State.GateGuarded.of_released {s t : State} (h : s.GateGuarded) (work : OutletWork s t)
    (released : s.gate.Released t.gate) : t.GateGuarded := by
  have blocked := work.blocked released.fault
  obtain ⟨o, g, r, v, rfl⟩ := work.eq
  obtain ⟨out, rest⟩ := h
  dsimp only at released
  rcases released with same | ⟨was, not, -⟩
  · refine ⟨fun commanded => ?_, fun kind => same.trans (rest kind)⟩
    rw [blocked]
    exact out (same ▸ commanded)
  · refine ⟨fun commanded => absurd commanded (by simp [not]), fun kind => absurd (out was).1 kind⟩

/-- The close events of windows keep the gate guarded and take a holder each (R102, R117). -/
theorem foldl_closeEvent_gate {L : Nat} : ∀ (ws : List Window) {s : State}, s.GateHeld ws.length → s.GateGuarded →
    (ws.foldl (fun s w => s.closeEvent L w) s).GateHeld 0 ∧ (ws.foldl (fun s w => s.closeEvent L w) s).GateGuarded
  | [], _, held, guarded => ⟨held, guarded⟩
  | w :: ws, s, held, guarded => by
    have event : (s.closeEvent L w).GateHeld ws.length ∧ s.gate.Released (s.closeEvent L w).gate := by
      unfold State.closeEvent
      split
      case h_1 lanes => exact ⟨fun gate => by simp [State.laneCloseEvent, lanes] at gate, .inl rfl⟩
      case h_2 gate =>
        obtain ⟨holders, released, outlets⟩ := s.gateCloseEvent_gate L w
        refine ⟨fun _ => ?_, released⟩
        have := held gate
        rw [holders, outlets]
        rw [List.length_cons] at this
        omega
      case h_3 nothing => exact ⟨fun gate => by simp [nothing] at gate, .inl rfl⟩
    exact foldl_closeEvent_gate ws event.1 (guarded.of_released (s.closeEvent_work L w) event.2)

/-- The close events of a step keep the gate's promises (R94, R117). -/
theorem State.GateSound.closes {s : State} (h : s.GateSound) (L : Nat) (isDue fresh : Window → Bool) :
    ((splitClosing isDue fresh s.outlets.closeQ).1.foldl (fun s w => s.closeEvent L w)
      (s.setCloseQ (splitClosing isDue fresh s.outlets.closeQ).2)).GateSound := by
  obtain ⟨held, guarded⟩ := s.gateSound_iff.1 h
  have parts := (splitClosing_perm isDue fresh s.outlets.closeQ).length_eq
  rw [List.length_append] at parts
  refine (State.gateSound_iff _).2 (foldl_closeEvent_gate _ (fun gate => ?_) guarded)
  rw [State.setCloseQ_outlets]
  dsimp only
  rw [parts]
  exact (held gate).trans (Nat.zero_add _)

/-- The open event of a lane window leaves the gate (R99). -/
theorem State.laneOpenEvent_gate (s : State) (w : Window) : (s.laneOpenEvent w).gate = s.gate := by
  unfold State.laneOpenEvent
  split
  · rfl
  · dsimp only
    split <;> rfl

/-- The open event of a window on a MOVING belt that is not blocked keeps the gate's promises (R99, R114). -/
theorem State.GateSound.opens {s : State} (h : s.GateSound) (moves : s.belt.state = .moving) (free : s.blocked = false)
    (L : Nat) (w : Window) : (s.openEvent L w).GateSound := by
  obtain ⟨held, guarded⟩ := s.gateSound_iff.1 h
  have work := s.openEvent_work L w
  have blocked := s.openEvent_blocked L w
  unfold State.openEvent at work blocked ⊢
  cases kind : s.opts.kind with
  | lanes =>
    simp only [kind] at work ⊢
    obtain ⟨_, _, _, _, eq⟩ := work.eq
    have opts : (s.laneOpenEvent w).opts = s.opts := by rw [eq]
    refine (State.gateSound_iff _).2 ⟨fun gate => ?_, guarded.of_released work (.inl (by rw [s.laneOpenEvent_gate]))⟩
    simp [opts, kind] at gate
  | gate =>
    simp only [kind] at blocked ⊢
    unfold State.gateOpenEvent at blocked ⊢
    split at blocked
    case isTrue full => rw [if_pos full]; exact h
    case isFalse room =>
      rw [if_neg room]
      refine ⟨fun _ => ?_, fun _ => ⟨kind, blocked.trans free, moves⟩, fun other => absurd kind other⟩
      have holders : (s.gate.takeHolder s.belt.count L).holders = s.gate.holders + 1 := by
        unfold Gate.takeHolder
        dsimp only
        split <;> simp
      have := held kind
      simp only [State.issue_gate, State.issue_outlets, length_insertBehind]
      omega
  | nothing => exact h

/-- The outlets' work at a step keeps the gate's promises (R94, R112, R119). -/
theorem State.GateSound.outletStep {s : State} (h : s.GateSound) (became : Bool) : (s.outletStep became).GateSound := by
  refine State.outletStep_keeps (P := State.GateSound) (fun _ _ h => h) (fun _ _ h => h) (fun _ _ h => h)
    (fun _ L w moves free h => State.GateSound.opens h moves free L w) (fun _ L isDue fresh h => State.GateSound.closes h L isDue fresh)
    (fun u L h => ?_) s became h
  obtain ⟨held, guarded⟩ := u.gateSound_iff.1 h
  refine (State.gateSound_iff _).2 ⟨?_, guarded.of_released (u.holdStep_work L) ?_⟩ <;> unfold State.holdStep <;> split
  · exact fun gate => (Gate.sendBack_holders ..).trans (held gate)
  · exact held
  · rename_i out
    exact Gate.sendBack_released out.2.1 ..
  · exact .inl rfl

/-! ### Before an event is handed on -/

/-- The gate's promises after an act that has changed e into a, while blocking may have begun: then the gate is still to be
released (R96, R119). -/
structure GateActed (e a : State) : Prop where
  held : a.GateHeld 0
  commanded : a.gate.state.commanded = true →
    a.opts.kind = .gate ∧ (a.blocked = true → e.blocked = false) ∧ (a.blocked = false → a.belt.state = .moving)
  rest : a.opts.kind ≠ .gate → a.gate.state = .rest

/-- Where the promises hold already, nothing is to be released. -/
theorem State.GateSound.acted {a : State} (h : a.GateSound) (e : State) : GateActed e a := by
  obtain ⟨held, ⟨out, rest⟩⟩ := a.gateSound_iff.1 h
  refine ⟨held, fun commanded => ?_, rest⟩
  obtain ⟨kind, free, moves⟩ := out commanded
  exact ⟨kind, fun blocked => by simp [free] at blocked, fun _ => moves⟩

/-- An act that commands no gate out, and leaves the belt MOVING where it leaves the outlets unblocked, keeps the promises but
for what the beginning of blocking is to release. -/
theorem State.GateSound.acts {e a : State} (h : e.GateSound) (opts : a.opts = e.opts) (holders : a.gate.holders = e.gate.holders)
    (queue : a.outlets.closeQ.length = e.outlets.closeQ.length)
    (out : a.gate.state.commanded = true → e.gate.state.commanded = true)
    (rest : e.opts.kind ≠ .gate → a.gate.state = e.gate.state)
    (belt : a.blocked = false → e.belt.state = .moving → a.belt.state = .moving) : GateActed e a := by
  obtain ⟨held, was, atRest⟩ := h
  refine ⟨fun gate => ?_, fun commanded => ?_, fun kind => ?_⟩
  · rw [holders, queue, Nat.zero_add]
    exact held (opts ▸ gate)
  · obtain ⟨kind, free, moves⟩ := was (out commanded)
    exact ⟨opts ▸ kind, fun _ => free, fun unblocked => belt unblocked moves⟩
  · rw [opts] at kind
    exact (rest kind).trans (atRest kind)

/-- Cutting windows releases their lanes in the queue's order, takes a holder each on a GATE station, and settles each TRIMMED
with CUT (R96, R119). -/
theorem foldl_cutWindow_eq (ws : List Window) (s : State) :
    ws.foldl State.cutWindow s = { s with
      outlets := { s.outlets with lanes := ws.foldl (fun lanes w => releaseLanes w.grant lanes) s.outlets.lanes }
      gate := { s.gate with holders := if s.opts.kind = .gate then s.gate.holders - ws.length else s.gate.holders }
      table := { s.table with
        reports := s.table.reports ++ ws.map fun w => .settled w.slot .trimmed none { w.flags with cut := true } } } := by
  induction ws generalizing s with
  | nil => simp
  | cons w ws ih =>
    rw [List.foldl_cons, ih]
    by_cases kind : s.opts.kind = .gate
    · simp [State.cutWindow, State.issue, kind, Nat.sub_sub, Nat.add_comm 1]
    · simp [State.cutWindow, State.issue, kind]

/-- When blocking begins no window is left in the close queue, no holder at the gate, and the gate commands nothing (R96,
R119). -/
theorem GateActed.blocks {e a : State} (h : GateActed e a) : a.beginBlocking.GateSound := by
  have cut := foldl_cutWindow_eq a.outlets.closeQ (a.setCloseQ [])
  unfold State.beginBlocking
  dsimp only
  generalize a.outlets.closeQ.foldl State.cutWindow (a.setCloseQ []) = u at cut
  have queue : u.outlets.closeQ = [] := by rw [cut]; rfl
  have opts : u.opts = a.opts := by rw [cut]; rfl
  have gate : u.gate = { a.gate with
      holders := if a.opts.kind = .gate then a.gate.holders - a.outlets.closeQ.length else a.gate.holders } := by
    rw [cut]; rfl
  have state : u.gate.state = a.gate.state := by rw [gate]
  have holders : u.opts.kind = .gate → u.gate.holders = 0 := by
    intro kind
    have := h.held (opts ▸ kind)
    rw [opts] at kind
    simp [gate, kind, this]
  have rest : u.opts.kind ≠ .gate → u.gate.state = .rest := by
    rw [opts, state]
    exact h.rest
  split
  case isTrue out =>
    refine ⟨fun kind => ?_, fun commanded => ?_, fun kind => absurd out.1 kind⟩
    · exact (Gate.sendBack_holders ..).trans ((holders kind).trans (congrArg List.length queue).symm)
    · simp [State.releaseGate] at commanded
  case isFalse calm =>
    refine ⟨fun kind => (holders kind).trans (by rw [queue]; rfl), fun commanded => ?_, rest⟩
    have kind := (h.commanded (state ▸ commanded)).1
    rw [← opts] at kind
    exact absurd ⟨kind, commanded, holders kind⟩ calm

/-- The gate's promises are read from the options, the gate, the close queue's length, the states of belt and station and the
band. -/
theorem State.GateSound.of_same {s t : State} (h : s.GateSound) (opts : t.opts = s.opts) (gate : t.gate = s.gate)
    (queue : t.outlets.closeQ.length = s.outlets.closeQ.length) (belt : t.belt.state = s.belt.state)
    (state : t.station.state = s.station.state) (band : t.scan.band = s.scan.band) : t.GateSound := by
  have blocked : t.blocked = s.blocked := State.blocked_congr opts state belt band (by rw [gate])
  unfold State.GateSound
  rw [gate, opts, queue, belt, blocked]
  exact h

/-- The hand-on restores the gate's promises (R96, R119). -/
theorem GateActed.handOn {e a : State} (h : GateActed e a) : (handOn e a).GateSound := by
  have block : (blockIfBegun e a).GateSound := by
    unfold blockIfBegun
    split
    · exact h.blocks
    · rename_i notBegun
      have kept : a.gate.state.commanded = true → a.blocked = false := by
        intro commanded
        obtain ⟨-, begins, -⟩ := h.commanded commanded
        cases blocked : a.blocked with
        | false => rfl
        | true => simp [begins blocked, blocked] at notBegun
      exact (State.gateSound_iff _).2 ⟨h.held,
        fun commanded => ⟨(h.commanded commanded).1, kept commanded, (h.commanded commanded).2.2 (kept commanded)⟩, h.rest⟩
  have frame := handOn_keepsBut e a
  have queue : (Machine.handOn e a).outlets.closeQ = (blockIfBegun e a).outlets.closeQ := frame.same .closeQ (by simp)
  have belt : (Machine.handOn e a).belt = (blockIfBegun e a).belt := frame.same .belt (by simp)
  exact block.of_same (frame.same .opts (by simp)) (frame.same .gate (by simp)) (by rw [queue]) (by rw [belt])
    (frame.same .state (by simp)) (frame.same .band (by simp))

/-! ### The commands -/

/-- A belt that moves goes on moving at a forward step (R6). -/
theorem Belt.forwardStep_moving {b : Belt} (moves : b.state = .moving) (now : TimeBase) :
    (b.forwardStep now).state = .moving := by
  have stamped : ∀ c : Belt, c.state = .moving → (c.stamp now).state = .moving := by
    intro c h
    unfold Belt.stamp
    split <;> exact h
  unfold Belt.forwardStep
  simp only [moves]
  exact if_neg fun h => by simp [stamped] at h

/-- A forward step keeps the gate's promises (R6, R11). -/
theorem State.GateSound.stepForward {s : State} (h : s.GateSound) : s.stepForward.GateSound := by
  have measured : State.GateSound { s with belt := s.belt.forwardStep s.timeBase } := by
    obtain ⟨held, out, rest⟩ := h
    refine ⟨held, fun commanded => ?_, rest⟩
    obtain ⟨kind, free, moves⟩ := out commanded
    have still := Belt.forwardStep_moving moves s.timeBase
    have blocked : State.blocked { s with belt := s.belt.forwardStep s.timeBase } = s.blocked :=
      State.blocked_congr rfl rfl (still.trans moves.symm) rfl Iff.rfl
    exact ⟨kind, blocked.trans free, still⟩
  unfold State.stepForward
  dsimp only
  generalize ({ s with belt := s.belt.forwardStep s.timeBase } : State) = u at measured
  have frame := u.rowTest_keepsBut
  obtain ⟨r, belt⟩ := u.rowTest_belt
  have queue : u.rowTest.outlets.closeQ = u.outlets.closeQ := frame.same .closeQ (by simp)
  exact State.GateSound.outletStep (measured.of_same (frame.same .opts (by simp)) (frame.same .gate (by simp)) (by rw [queue])
    (by rw [belt]) (frame.same .state (by simp)) (frame.same .band (by simp))) _

/-- An encoder edge keeps the promises but for what the beginning of blocking is to release (R2, R5, R11). -/
theorem State.GateSound.encoderEdge {e : State} (h : e.GateSound) (a b : Bool) : GateActed e (e.encoderEdge a b) := by
  have reference : State.GateSound { e with belt := { e.belt with encA := a, encB := b } } := h.of_same rfl rfl rfl rfl rfl rfl
  unfold State.encoderEdge State.takeEdge
  split
  · exact reference.acted e
  · split
    · exact State.GateSound.acted reference.stepForward e
    · refine State.GateSound.acted ?_ e
      exact reference.of_same rfl rfl rfl rfl rfl rfl
  · split
    · exact h.acts rfl rfl rfl id (fun _ => rfl) fun free => by simp [State.blocked, Belt.backwardStep] at free
    · refine State.GateSound.acted ?_ e
      exact reference.of_same rfl rfl rfl rfl rfl rfl
  · refine State.GateSound.acted ?_ e
    exact reference.of_same rfl rfl rfl rfl rfl rfl

/-- The step silence timer leaves the belt's state or makes it STOPPED (R4). -/
theorem State.silenceExpiry_state (s : State) :
    s.silenceExpiry.belt.state = s.belt.state ∨ s.silenceExpiry.belt.state = .stopped := by
  unfold State.silenceExpiry
  split
  · split
    · exact .inl rfl
    · split
      · exact .inl rfl
      · exact .inr rfl
  · exact .inl rfl

/-- Closing excess lanes keeps the gate and the length of the close queue (R105). -/
theorem closeExcess_queue : ∀ (k : Nat) (s : State), (closeExcess k s).gate = s.gate ∧
    (closeExcess k s).outlets.closeQ.length = s.outlets.closeQ.length
  | 0, s => ⟨rfl, rfl⟩
  | k + 1, s => by
    unfold closeExcess
    split
    · rename_i n _
      obtain ⟨gate, queue⟩ := closeExcess_queue k ((s.takeLane n .afterReset).bump .bandDropClose)
      exact ⟨gate, queue.trans (length_loseLane n s.outlets.closeQ)⟩
    · exact ⟨rfl, rfl⟩

/-- An auxiliary value keeps the gate and the length of the close queue (R27, R105). -/
theorem State.takeAux_queue (s : State) (ch : AuxChannel) (v : Nat) :
    (s.takeAux ch v).gate = s.gate ∧ (s.takeAux ch v).outlets.closeQ.length = s.outlets.closeQ.length := by
  unfold State.takeAux
  split
  · split
    · dsimp only
      split
      · exact ⟨rfl, rfl⟩
      · exact closeExcess_queue _ _
    · exact ⟨rfl, rfl⟩
  · exact ⟨rfl, rfl⟩

/-- A gate that enters FAULT keeps its holders and is in FAULT (R120). -/
theorem State.enterGateFault_gate (s : State) :
    s.enterGateFault.gate.holders = s.gate.holders ∧ s.enterGateFault.gate.state = .fault := by
  refine ⟨?_, rfl⟩
  unfold State.enterGateFault
  rw [Gate.endInterval_eq]
  rfl

/-- A switch event keeps the holders, and a gate that it leaves commanded out was commanded out (R115, R120, R121). -/
theorem State.switched_gate (s : State) : s.switched.gate.holders = s.gate.holders ∧
    (s.switched.gate.state.commanded = true → s.gate.state.commanded = true) := by
  obtain ⟨holders, fault⟩ := s.enterGateFault_gate
  have faults : s.enterGateFault.gate.holders = s.gate.holders ∧
      (s.enterGateFault.gate.state.commanded = true → s.gate.state.commanded = true) :=
    ⟨holders, fun h => by rw [fault] at h; cases h⟩
  unfold State.switched
  split
  · split
    · exact ⟨rfl, id⟩
    · exact faults
    · exact faults
    · exact faults
    · exact faults
  · split
    · rename_i h; split
      · exact ⟨rfl, fun _ => by rw [h]; rfl⟩
      · exact ⟨rfl, id⟩
    · split
      · exact ⟨rfl, fun h => nomatch h⟩
      · exact ⟨rfl, id⟩
    · split
      · exact ⟨rfl, fun h => nomatch h⟩
      · exact ⟨rfl, id⟩
    · exact ⟨rfl, id⟩
    · exact ⟨rfl, id⟩

/-- Every command keeps the gate's promises but for what the beginning of blocking is to release. -/
theorem State.GateSound.act {c : Instr} (other : c.actsInReset = false) {e : State} (h : e.GateSound) :
    GateActed e (e.act c) := by
  have frame := State.act_keepsBut other e
  have opts : Part.opts ∉ c.parts → (e.act c).opts = e.opts := frame.same .opts
  have belt : Part.belt ∉ c.parts → (e.act c).belt = e.belt := frame.same .belt
  have gate : Part.gate ∉ c.parts → (e.act c).gate = e.gate := frame.same .gate
  have queue : Part.closeQ ∉ c.parts → (e.act c).outlets.closeQ = e.outlets.closeQ := frame.same .closeQ
  clear frame
  have moved : Part.belt ∉ c.parts → (e.act c).blocked = false → e.belt.state = .moving →
      (e.act c).belt.state = .moving := fun still _ moves => by rw [belt still]; exact moves
  cases c with
  | encoderEdge l a b =>
    obtain ⟨_, _, _, _, _, ahead⟩ := e.readAhead_eq l.between
    have acted := State.GateSound.encoderEdge (e := e.readAhead l.between) (by rw [ahead]; exact h) a b
    have same : (e.readAhead l.between).blocked = e.blocked := by rw [ahead]; rfl
    exact ⟨acted.held, fun out => by rw [← same]; exact acted.commanded out, acted.rest⟩
  | stepSilenceExpiry l =>
    have gate := gate (by simp [Instr.parts])
    refine h.acts (opts (by simp [Instr.parts])) (by rw [gate]) (by rw [queue (by simp [Instr.parts])]) (by rw [gate]; exact id)
      (fun _ => by rw [gate]) fun free moves => ?_
    rcases e.silenceExpiry_state with same | stopped
    · exact same.trans moves
    · exact absurd free (by simp [State.act, State.blocked, stopped])
  | auxiliaryConversionComplete l result =>
    have acted : (e.completeAux result).gate = e.gate ∧
        (e.completeAux result).outlets.closeQ.length = e.outlets.closeQ.length := by
      unfold State.completeAux
      split
      · split
        · exact e.takeAux_queue _ _
        · exact ⟨rfl, rfl⟩
      · exact ⟨rfl, rfl⟩
    obtain ⟨gate, length⟩ := acted
    exact h.acts (opts (by simp [Instr.parts])) (congrArg Gate.holders gate) length
      (fun out => by rw [← gate]; exact out) (fun _ => congrArg Gate.state gate) (moved (by simp [Instr.parts]))
  | maxOnTrip l lane =>
    have length : (e.tripLane lane).outlets.closeQ.length = e.outlets.closeQ.length := by
      unfold State.tripLane
      split
      · exact length_loseLane lane _
      · rfl
    have gate := gate (by simp [Instr.parts])
    exact h.acts (opts (by simp [Instr.parts])) (by rw [gate]) length (by rw [gate]; exact id) (fun _ => by rw [gate])
      (moved (by simp [Instr.parts]))
  | switchEvent l sw high =>
    have acted : (e.switchEvent sw high).gate.holders = e.gate.holders ∧
        ((e.switchEvent sw high).gate.state.commanded = true → e.gate.state.commanded = true) ∧
        (e.opts.kind ≠ .gate → (e.switchEvent sw high).gate.state = e.gate.state) := by
      unfold State.switchEvent
      split
      · rename_i changed
        obtain ⟨holders, out⟩ := State.switched_gate { e with gate := e.gate.accept sw high }
        have accept : (e.gate.accept sw high).holders = e.gate.holders ∧ (e.gate.accept sw high).state = e.gate.state := by
          cases sw <;> exact ⟨rfl, rfl⟩
        exact ⟨holders.trans accept.1, fun h => accept.2 ▸ out h, fun kind => absurd changed.1 kind⟩
      · exact ⟨rfl, id, fun _ => rfl⟩
    obtain ⟨holders, out, kept⟩ := acted
    exact h.acts (opts (by simp [Instr.parts])) holders (by rw [queue (by simp [Instr.parts])]) out kept
      (moved (by simp [Instr.parts]))
  | travelTimeout l =>
    by_cases due : e.travelDue = true
    · obtain ⟨holders, fault⟩ := e.enterGateFault_gate
      have acted : e.act (.travelTimeout l) = e.enterGateFault := if_pos due
      rw [acted] at opts queue moved ⊢
      refine h.acts (opts (by simp [Instr.parts])) holders (by rw [queue (by simp [Instr.parts])])
        (fun out => by rw [fault] at out; cases out) (fun kind => ?_) (moved (by simp [Instr.parts]))
      simp [State.travelDue, h.2.2 kind] at due
    · have acted : e.act (.travelTimeout l) = e := if_neg due
      rw [acted]
      exact h.acted e
  | powerOn | coreSupplyDrop | resetPin | optionWriteCompleted | supplyRise | resetPinHigh | resetEnd => cases other
  | _ =>
    have gate := gate (by simp [Instr.parts])
    exact h.acts (opts (by simp [Instr.parts])) (by rw [gate]) (by rw [queue (by simp [Instr.parts])]) (by rw [gate]; exact id)
      (fun _ => by rw [gate]) (moved (by simp [Instr.parts]))

/-- Time leaves the close queue (R107). -/
@[simp] theorem Outlets.pass_closeQ (n : Nat) (o : Outlets) : (o.pass n).closeQ = o.closeQ := by simp only [Outlets.pass]

/-- Time leaves the open queue (R107). -/
@[simp] theorem Outlets.pass_openQ (n : Nat) (o : Outlets) : (o.pass n).openQ = o.openQ := by simp only [Outlets.pass]

/-- Time keeps the gate's promises (R116). -/
theorem State.GateSound.pass {s : State} (h : s.GateSound) (v : Level) (n : Nat) : (s.pass v n).GateSound := by
  unfold State.pass
  split
  · exact h
  · split
    · exact h.of_same rfl rfl rfl rfl rfl rfl
    · obtain ⟨held, out, rest⟩ := h
      refine ⟨fun kind => ?_, fun commanded => ?_, rest⟩
      · simp only [Outlets.pass_closeQ]
        exact held kind
      obtain ⟨kind, free, moves⟩ := out commanded
      exact ⟨kind, (State.blocked_congr (s := s) rfl rfl rfl rfl Iff.rfl).trans free, moves⟩

/-- After reset no window is queued and the gate commands nothing (R125). -/
theorem State.gateSound_of_afterReset {s : State} (outlets : s.outlets = .afterReset) {swRest swDiv : Bool}
    (gate : s.gate = .afterReset s.opts.kind swRest swDiv) : s.GateSound := by
  refine ⟨fun _ => by rw [gate, outlets]; rfl, fun commanded => ?_, fun kind => by rw [gate]; exact if_neg fun h => kind h.1⟩
  rw [gate] at commanded
  unfold Gate.afterReset at commanded
  dsimp only at commanded
  split at commanded <;> cases commanded

/-- Settles O57: an act leaves the gate to the beginning of blocking where blocking begins, and the hand-on releases it then;
everywhere else the two promises hold already. -/
theorem gateStaysSound : Obligations.GateStaysSound := by
  unfold Obligations.GateStaysSound
  intro s t holds next
  refine step_keeps (P := State.GateSound) (fun _ _ h => h) (fun _ v n h => State.GateSound.pass h v n)
    (fun c e _ other h => (State.GateSound.act other h).handOn) ?logic
    (fun e _ => State.gateSound_of_afterReset rfl (swRest := true) (swDiv := true) rfl) holds next
  case logic =>
    intro c e acts h
    cases c with
    | powerOn | coreSupplyDrop | resetPin =>
      exact State.gateSound_of_afterReset rfl (swRest := true) (swDiv := true) rfl
    | supplyRise | resetPinHigh => exact h
    | optionWriteCompleted =>
      simp only [State.act, State.writeCompleted]
      split
      · exact State.gateSound_of_afterReset rfl (swRest := true) (swDiv := true) rfl
      · exact h
    | resetEnd l pins =>
      rcases e.endReset_cases pins with ⟨-, ends⟩ | ⟨-, ends⟩ <;> rw [State.act, ends]
      · exact State.gateSound_of_afterReset rfl (swRest := pins.swRest) (swDiv := pins.swDiv) rfl
      · exact h
    | _ => cases acts

end Sys2Proof.Machine
end

section
/-! PROOFS. The promises of the reset logic. -/

namespace Sys2Proof.Machine

/-- While a write is in progress the mark is clear (R180). -/
def Store.Sound (st : Store) : Prop := st.writing.isSome = true → st.mark = false

/-- A store with no write in progress. -/
theorem Store.sound_of_none {st : Store} (none : st.writing = none) : st.Sound := by
  simp [Store.Sound, none]

/-- Every command keeps the store's mark clear while a write is in progress, before it is handed on (R180). -/
theorem State.act_storeSound {c : Instr} (other : c.actsInReset = false) {e : State} (h : e.store.Sound) :
    (e.act c).store.Sound := by
  have store : Part.store ∉ c.parts → (e.act c).store = e.store := (State.act_keepsBut other e).same .store
  cases c with
  | writeOptions t =>
    refine State.transact_keeps (P := fun s => s.store.Sound) (fun _ _ _ h => h) (fun _ h => h) (fun s hs => ?_) h t _ _
    simp only [State.writeOptions]
    split
    · exact hs
    · split
      · exact fun _ => rfl
      · exact hs
  | powerOn | coreSupplyDrop | resetPin | optionWriteCompleted | supplyRise | resetPinHigh | resetEnd => cases other
  | _ => rw [store (by simp [Instr.parts])]; exact h

/-- In the running part the promises are that no source acts and that of the store (R180, R182). -/
theorem State.resetSound_of_running {s : State} (running : s.rst.asserted = false) (quiet : s.rst.acting = false)
    (store : s.store.Sound) : s.ResetSound :=
  ⟨fun acting => by simp [quiet] at acting, store, fun asserted => by simp [running] at asserted⟩

/-- A reset begins with its promises kept, if its source sets a cause flag (R173, R181, R182). -/
theorem State.assertReset_resetSound (s : State) {causes : Causes} (any : causes.any = true) (supplyLow pinLow : Bool) :
    (s.assertReset causes supplyLow pinLow).ResetSound := by
  have written : (s.assertReset causes supplyLow pinLow).store.writing = none := Store.abandon_writing ..
  exact ⟨fun _ => rfl, Store.sound_of_none written, fun _ => ⟨rfl, rfl, rfl, written, rfl, any⟩⟩

/-- The end of a source leaves the others' promises (R182). -/
theorem State.ResetSound.of_rst {s : State} (h : s.ResetSound) {r : Rst} (asserted : r.asserted = s.rst.asserted)
    (acting : r.acting = true → s.rst.acting = true) (causes : r.causes = s.rst.causes) :
    State.ResetSound { s with rst := r } := by
  obtain ⟨keeps, store, held⟩ := h
  refine ⟨fun acts => asserted.trans (keeps (acting acts)), store, fun still => ?_⟩
  obtain ⟨response, deferred, attention, written, outlets, any⟩ := held (asserted ▸ still)
  exact ⟨response, deferred, attention, written, outlets, causes ▸ any⟩

/-- Time keeps the reset logic's promises: while reset is asserted nothing runs but the start interval (R182). -/
theorem State.ResetSound.pass {s : State} (h : s.ResetSound) (v : Level) (n : Nat) : (s.pass v n).ResetSound := by
  unfold State.pass
  split
  · exact h
  · split
    · exact State.ResetSound.of_rst (s := { s with link := { s.link with rx := v } }) h rfl id rfl
    · rename_i running
      replace running := Bool.eq_false_of_not_eq_true running
      obtain ⟨keeps, store, -⟩ := h
      refine State.resetSound_of_running running ?_ store
      exact Bool.eq_false_of_not_eq_true fun acting => by simp [keeps acting] at running

/-- The end of a source, of the supply or of the pin, takes nothing else from the promises (R182). -/
theorem Rst.ends_eq (r : Rst) :
    (r.supplyRise.asserted = r.asserted ∧ (r.supplyRise.acting = true → r.acting = true) ∧ r.supplyRise.causes = r.causes) ∧
      (r.pinHigh.asserted = r.asserted ∧ (r.pinHigh.acting = true → r.acting = true) ∧ r.pinHigh.causes = r.causes) := by
  unfold Rst.supplyRise Rst.pinHigh
  constructor
  · split
    · exact ⟨rfl, fun acting => by simp_all [Rst.acting], rfl⟩
    · exact ⟨rfl, id, rfl⟩
  · split
    · exact ⟨rfl, fun acting => by simp_all [Rst.acting], rfl⟩
    · exact ⟨rfl, id, rfl⟩

/-- The commands of the reset logic keep its promises (R180, R181, R182). -/
theorem State.ResetSound.act {c : Instr} (acts : c.actsInReset = true) {e : State} (h : e.ResetSound) :
    (e.act c).ResetSound := by
  obtain ⟨⟨supplyAsserted, supplyActing, supplyCauses⟩, pinAsserted, pinActing, pinCauses⟩ := e.rst.ends_eq
  cases c with
  | powerOn | coreSupplyDrop | resetPin =>
    exact State.assertReset_resetSound _ (by simp [Causes.any, Causes.onPower]) _ _
  | supplyRise => exact h.of_rst supplyAsserted supplyActing supplyCauses
  | resetPinHigh => exact h.of_rst pinAsserted pinActing pinCauses
  | optionWriteCompleted =>
    simp only [State.act, State.writeCompleted]
    split
    · exact State.assertReset_resetSound _ (by simp [Causes.any]) _ _
    · exact h
  | resetEnd l pins =>
    rcases e.endReset_cases pins with ⟨may, ends⟩ | ⟨-, ends⟩ <;> rw [State.act, ends]
    · obtain ⟨-, store, -⟩ := h
      simp only [Rst.mayEnd, Bool.and_eq_true, Bool.not_eq_true', decide_eq_true_eq] at may
      obtain ⟨⟨-, quiet⟩, -⟩ := may
      exact State.resetSound_of_running rfl quiet store
    · exact h
  | _ => cases acts

/-- Settles O59: the running part touches neither the sources nor a reset, time and the reset logic keep their promises, and
a reset begins with them. -/
theorem resetStaysSound : Obligations.ResetStaysSound := by
  unfold Obligations.ResetStaysSound
  intro s t holds next
  refine step_keeps (P := State.ResetSound) (fun _ _ h => h) (fun _ v n h => State.ResetSound.pass h v n) ?event
    (fun _ _ acts h => State.ResetSound.act acts h)
    (fun e _ => e.assertReset_resetSound (by simp [Causes.any]) _ _) holds next
  intro c e running other h
  obtain ⟨keeps, store, -⟩ := h
  have quiet : e.rst.acting = false := Bool.eq_false_of_not_eq_true fun acting => by simp [keeps acting] at running
  have acted := State.act_keepsBut other e
  have blocks : KeepsBut [.openQ, .closeQ, .lanes, .gate] (e.act c) (blockIfBegun e (e.act c)) := by
    unfold blockIfBegun
    exact .ite (State.beginBlocking_work _).keepsBut (.refl _ _)
  have handed := handOn_keepsBut e (e.act c)
  refine State.resetSound_of_running ?_ ?_ ?_
  · exact ((handed.same .asserted (by simp)).trans (blocks.same .asserted (by simp))).trans
      ((acted.same .asserted (by cases c <;> simp [Instr.parts])).trans running)
  · exact ((handed.same .acting (by simp)).trans (blocks.same .acting (by simp))).trans
      ((acted.same .acting (by cases c <;> simp [Instr.parts])).trans quiet)
  · have kept : (handOn e (e.act c)).store = (e.act c).store :=
      (handed.same .store (by simp)).trans (blocks.same .store (by simp))
    rw [kept]
    exact State.act_storeSound other store

end Sys2Proof.Machine
end

section
/-! PROOFS. The promises of the roster and the mode. -/

namespace Sys2Proof.Machine

/-- A slot is PRESENT or QUIET only with the fields of a HELLO of this step code and a silence timer within its stop (R168). -/
def RosterSlot.Sound (stepCode : Nat) (r : RosterSlot) : Prop :=
  r.state = .present ∨ r.state = .quiet →
    (r.fields.any fun h => h.step = stepCode) = true ∧ (r.silence.any fun t => t ≤ silenceStop) = true

/-- A slot in any other state keeps the promise of a slot. -/
theorem RosterSlot.sound_of_state {stepCode : Nat} {r : RosterSlot} (present : r.state ≠ .present) (quiet : r.state ≠ .quiet) :
    r.Sound stepCode := by
  rintro (h | h)
  · exact absurd h present
  · exact absurd h quiet

/-- The roster's promises are read from the options, the number, the roster and the mode. -/
theorem State.RosterSound.of_same {s t : State} (h : s.RosterSound) (opts : t.opts = s.opts)
    (number : t.station.number = s.station.number)
    (roster : t.station.roster = s.station.roster ∧ t.station.mode = s.station.mode) : t.RosterSound := by
  have mode : t.modeNow = s.modeNow := State.modeNow_congr opts roster.1
  unfold State.RosterSound
  rw [roster.1, roster.2, number, opts, mode]
  exact h

/-- A slot that is replaced by one that keeps its promise keeps the roster's (R168, R169). -/
theorem State.RosterSound.setRoster {s : State} (h : s.RosterSound) {n : Fin 16} {r : RosterSlot}
    (self : r.state = .self ↔ n = s.station.number) (slot : r.Sound s.opts.stepCode) : (s.setRoster n r).RosterSound := by
  obtain ⟨selfOnly, slots, mode⟩ := h
  obtain ⟨m, replaced, kept, evaluated⟩ := s.setRoster_eq n r
  have each : ∀ k : Fin 16, (s.station.roster.set n r)[k] = if n = k then r else s.station.roster[k] := by
    intro k
    by_cases e : n = k
    · subst e; simp
    · have : n.val ≠ k.val := fun h => e (Fin.ext h)
      simp [e, this]
  have modes : m = (s.setRoster n r).modeNow := by
    by_cases cover : s.opts.cover = some n
    · exact evaluated cover
    · rw [kept cover, mode, replaced]
      unfold State.modeNow
      split
      · rename_i none
        simp only [none]
      · rename_i c some
        have other : n ≠ c := fun e => cover (e ▸ some)
        simp only [some, each c, if_neg other]
  rw [replaced] at modes ⊢
  refine ⟨fun k => ?_, fun k => ?_, modes⟩
  · simp only [each k]
    split
    · rename_i e; rw [← e]; exact self
    · exact selfOnly k
  · simp only [each k]
    split
    · exact slot
    · exact slots k

/-- A slot that is heard keeps its promise (R168). -/
theorem RosterSlot.Sound.heard {stepCode : Nat} {r : RosterSlot} (h : r.Sound stepCode) : r.heard.Sound stepCode := by
  obtain ⟨state, fields, silence⟩ := r
  cases state with
  | present => exact fun _ => ⟨(h (.inl rfl)).1, rfl⟩
  | quiet => exact fun _ => ⟨(h (.inr rfl)).1, rfl⟩
  | unknown | absent | mismatch | self => exact RosterSlot.sound_of_state nofun nofun

/-- A HELLO taken by a slot that has been heard keeps the slot's promise (R167, R168). -/
theorem RosterSlot.takeHello_sound (stepCode : Nat) (h : HelloFields) (r : RosterSlot) :
    (r.heard.takeHello stepCode h).Sound stepCode := by
  obtain ⟨state, fields, silence⟩ := r
  by_cases step : h.step = stepCode
  · cases state with
    | self => exact RosterSlot.sound_of_state nofun nofun
    | _ => exact fun _ => ⟨by simp [RosterSlot.takeHello, RosterSlot.heard, step], rfl⟩
  · cases state with
    | self => exact RosterSlot.sound_of_state nofun nofun
    | _ => apply RosterSlot.sound_of_state <;> simp [RosterSlot.takeHello, RosterSlot.heard, step]

/-- Being heard leaves SELF alone to the own slot (R166, R168). -/
theorem RosterSlot.heard_self (r : RosterSlot) : r.heard.state = .self ↔ r.state = .self := by
  obtain ⟨state, fields, silence⟩ := r
  cases state <;> simp [RosterSlot.heard]

/-- A HELLO leaves SELF alone to the own slot (R166, R167). -/
theorem RosterSlot.takeHello_self (stepCode : Nat) (h : HelloFields) (r : RosterSlot) :
    (r.takeHello stepCode h).state = .self ↔ r.state = .self := by
  obtain ⟨state, fields, silence⟩ := r
  by_cases step : h.step = stepCode
  · cases state <;> simp [RosterSlot.takeHello, step]
  · cases state <;> simp [RosterSlot.takeHello, step]

/-- Hearing a number keeps the roster's promises (R152, R168). -/
theorem State.RosterSound.hear {s : State} (h : s.RosterSound) (n : Fin 16) : (s.hear n).RosterSound :=
  State.RosterSound.setRoster h (((s.station.roster[n]).heard_self).trans (h.1 n)) (RosterSlot.Sound.heard (h.2.1 n))

/-- A frame of another number keeps the roster's promises (R152, R167). -/
theorem State.RosterSound.dispatch {s : State} (h : s.RosterSound) (n : Fin 16) (kind : Nat) (payload : List Byte)
    (latch : Count) : (s.dispatch n kind payload latch).RosterSound := by
  have heard := h.hear n
  obtain ⟨m, hear, -⟩ := s.setRoster_eq n s.station.roster[n].heard
  have slot : (s.hear n).station.roster[n] = s.station.roster[n].heard := by
    rw [State.hear, hear]
    simp
  unfold State.dispatch
  dsimp only
  generalize s.hear n = u at heard slot
  split
  · unfold State.takeHello
    split
    · refine State.RosterSound.setRoster heard ?_ ?_
      · exact (RosterSlot.takeHello_self ..).trans (heard.1 n)
      · rw [slot]
        exact RosterSlot.takeHello_sound _ _ _
    · exact heard
  · split
    · have frame := u.takePiece_keepsBut n payload latch
      exact heard.of_same (frame.same .opts (by simp)) (frame.same .number (by simp)) (frame.same .roster (by simp))
    · unfold State.takeEscape
      split
      · split <;> exact heard
      · exact heard

/-- Every command keeps the roster's promises before it is handed on. -/
theorem State.RosterSound.act {c : Instr} (other : c.actsInReset = false) {e : State} (h : e.RosterSound) :
    (e.act c).RosterSound := by
  have frame := State.act_keepsBut other e
  have opts : Part.opts ∉ c.parts → (e.act c).opts = e.opts := frame.same .opts
  have number : Part.number ∉ c.parts → (e.act c).station.number = e.station.number := frame.same .number
  have roster : Part.roster ∉ c.parts →
    (e.act c).station.roster = e.station.roster ∧ (e.act c).station.mode = e.station.mode := frame.same .roster
  clear frame
  cases c with
  | validFrame l rx =>
    simp only [State.act, State.validFrame]
    split
    · unfold State.takeFrame
      dsimp only
      split
      · unfold State.takeOwnNumber
        split
        · exact h
        · exact State.RosterSound.of_same (s := e) h rfl rfl ⟨rfl, rfl⟩
      · exact State.RosterSound.dispatch (s := e.endReception) h ..
    · exact h
  | quiet l slot =>
    simp only [State.act, State.quietSlot]
    split
    · rename_i present silence
      split
      · refine State.RosterSound.setRoster h ⟨nofun, fun own => ?_⟩ fun _ => h.2.1 slot (.inl present)
        exact absurd ((h.1 slot).2 own) (by rw [present]; nofun)
      · exact h
    · exact h
  | absent l slot =>
    simp only [State.act, State.absentSlot]
    split
    · rename_i quiet silence
      split
      · refine State.RosterSound.setRoster h ⟨nofun, fun own => ?_⟩ (RosterSlot.sound_of_state nofun nofun)
        exact absurd ((h.1 slot).2 own) (by rw [quiet]; nofun)
      · exact h
    · exact h
  | powerOn | coreSupplyDrop | resetPin | optionWriteCompleted | supplyRise | resetPinHigh | resetEnd => cases other
  | _ => exact h.of_same (opts (by simp [Instr.parts])) (number (by simp [Instr.parts])) (roster (by simp [Instr.parts]))

/-- A roster after reset keeps its promises with the mode of R171. -/
theorem State.rosterSound_of_afterReset {s : State} {number : Fin 16} {first : StationState}
    (station : s.station = .afterReset number first s.opts.cover) : s.RosterSound := by
  have slots : ∀ k : Fin 16, s.station.roster[k] = ⟨if k = number then .self else .unknown, none, none⟩ := fun k => by
    simp [station, Station.afterReset, Station.rosterAfterReset]
  refine ⟨fun k => ?_, fun k => ?_, ?_⟩
  · rw [slots k, station]
    by_cases own : k = number <;> simp [own, Station.afterReset]
  · rw [slots k]
    by_cases own : k = number <;> simp [own]
  · unfold State.modeNow
    rw [station, Station.afterReset]
    dsimp only
    cases cover : s.opts.cover with
    | none => rfl
    | some c =>
      have dead : s.station.roster[c].live = none := by
        rw [slots c]
        by_cases own : c = number <;> simp [own, RosterSlot.live]
      rw [station, cover] at dead
      simp only [Station.afterReset] at dead
      simp only [dead, reduceCtorEq, if_false]

/-- Time keeps the roster's promises: a silence timer stops at 800,000 µs (R168). -/
theorem State.RosterSound.pass {s : State} (h : s.RosterSound) (v : Level) (n : Nat) : (s.pass v n).RosterSound := by
  have slots : ∀ k : Fin 16, (s.station.pass n).roster[k] = s.station.roster[k].pass n := fun k => by simp [Station.pass]
  obtain ⟨selfOnly, sound, mode⟩ := h
  unfold State.pass
  split
  · exact ⟨selfOnly, sound, mode⟩
  · split
    · exact State.RosterSound.of_same (s := s) ⟨selfOnly, sound, mode⟩ rfl rfl ⟨rfl, rfl⟩
    · refine ⟨fun k => ?_, fun k shown => ?_, mode.trans ?_⟩
      · simp only [slots k]
        exact selfOnly k
      · simp only [slots k] at shown ⊢
        obtain ⟨fields, silence⟩ := sound k shown
        refine ⟨fields, ?_⟩
        obtain ⟨t, running, -⟩ := Option.any_eq_true _ _ |>.1 silence
        show Option.any _ (Option.map _ s.station.roster[k].silence) = true
        rw [running]
        simp
      · unfold State.modeNow
        dsimp only
        split
        · rfl
        · rename_i c _
          rw [slots c]
          rfl

/-- Settles O56: a slot changes only by a frame heard, a HELLO taken or a silence point, each of which keeps its promise, and
the mode is evaluated with the cover station's. -/
theorem rosterStaysSound : Obligations.RosterStaysSound := by
  unfold Obligations.RosterStaysSound
  intro s t holds next
  refine step_keeps (P := State.RosterSound) (fun _ _ h => h) (fun _ v n h => State.RosterSound.pass h v n) ?event ?logic
    (fun e _ => State.rosterSound_of_afterReset (number := e.station.number) (first := .setup) rfl) holds next
  case event =>
    intro c e _ other h
    have acted := State.RosterSound.act other h
    have blocks : KeepsBut [.openQ, .closeQ, .lanes, .gate] (e.act c) (blockIfBegun e (e.act c)) := by
      unfold blockIfBegun
      exact .ite (State.beginBlocking_work _).keepsBut (.refl _ _)
    have frame := (blocks.mono (more := [.openQ, .closeQ, .lanes, .gate, .link]) (by simp)).trans
      ((handOn_keepsBut e (e.act c)).mono (by simp))
    exact acted.of_same (frame.same .opts (by simp)) (frame.same .number (by simp)) (frame.same .roster (by simp))
  case logic =>
    intro c e acts h
    cases c with
    | powerOn | coreSupplyDrop | resetPin =>
      exact State.rosterSound_of_afterReset (number := e.station.number) (first := .setup) rfl
    | supplyRise | resetPinHigh => exact h
    | optionWriteCompleted =>
      simp only [State.act, State.writeCompleted]
      split
      · exact State.rosterSound_of_afterReset (number := e.station.number) (first := .setup) rfl
      · exact h
    | resetEnd l pins =>
      rcases e.endReset_cases pins with ⟨-, ends⟩ | ⟨-, ends⟩ <;> rw [State.act, ends]
      · exact State.rosterSound_of_afterReset (number := pins.station) (first := firstState pins.setupHigh e.store.valid) rfl
      · exact h
    | _ => cases acts

end Sys2Proof.Machine
end

section
/-! PROOFS. The lengths of the queues and lists. -/

namespace Sys2Proof.Machine

/-! ### The transmit queue's length (R140, R141) -/

/-- The ESCAPE that a HELLO replaces is one notice less, and the others stay in their order (R141). -/
theorem lastIdleEscape_sublist : ∀ {q r : List Notice}, lastIdleEscape q = some r → r.Sublist q ∧ r.length + 1 = q.length
  | [], r, h => nomatch h
  | n :: rest, r, h => by
    unfold lastIdleEscape at h
    split at h
    · rename_i rest' later
      obtain ⟨sub, length⟩ := lastIdleEscape_sublist later
      split at h <;> cases h
      · exact ⟨List.sublist_cons_self n rest, rfl⟩
      · exact ⟨sub.cons_cons n, by simp [length]⟩
    · split at h <;> cases h
      exact ⟨List.sublist_cons_self n rest, rfl⟩

/-- A notice that joins makes the queue one longer (R140). -/
@[simp] theorem length_joinQueue (n : Notice) (q : List Notice) : (joinQueue n q).length = q.length + 1 :=
  length_insertBehind ..

/-- Offering a HELLO keeps the queue within 16 (R141). -/
theorem State.offerHello_length {s : State} (h : s.link.queue.length ≤ 16) (f : HelloFields) :
    (s.offerHello f).link.queue.length ≤ 16 := by
  unfold State.offerHello State.waitHello
  dsimp only
  split
  · exact h
  · split
    · split
      · exact h
      · simpa using h
    · split
      · simp; omega
      · split
        · rename_i q' escape
          have := (lastIdleEscape_sublist escape).2
          simp; omega
        · exact h

/-- Offering a PIECE or an ESCAPE keeps the queue within 16 (R141). -/
theorem State.offerNotice_length {s : State} (h : s.link.queue.length ≤ 16) (arb : Nat) (b : Body) :
    (s.offerNotice arb b).link.queue.length ≤ 16 := by
  unfold State.offerNotice
  split
  · simp; omega
  · exact h

/-- Requesting a HELLO keeps the queue within 16 (R165). -/
theorem State.requestHello_length {s : State} (h : s.link.queue.length ≤ 16) : s.requestHello.link.queue.length ≤ 16 := by
  unfold State.requestHello
  split
  · exact State.offerHello_length h _
  · exact h

/-- Requesting a PIECE keeps the queue within 16 (R66). -/
theorem State.requestPiece_length {s : State} (h : s.link.queue.length ≤ 16) (p : PieceNotice) :
    (s.requestPiece p).link.queue.length ≤ 16 := by
  unfold State.requestPiece
  split
  · exact State.offerNotice_length h ..
  · exact h

/-- Requesting an ESCAPE keeps the queue within 16 (R68). -/
theorem State.requestEscape_length {s : State} (h : s.link.queue.length ≤ 16) (e : EscapeNotice) :
    (s.requestEscape e).link.queue.length ≤ 16 := by
  unfold State.requestEscape
  split
  · exact State.offerNotice_length h ..
  · exact h

/-- A pending HELLO takes a place only where there is one (R141). -/
theorem Link.fillFreed_length {k : Link} (h : k.queue.length ≤ 16) (number : Fin 16) :
    (k.fillFreed number).queue.length ≤ 16 := by
  unfold Link.fillFreed
  split
  · split
    · simp; omega
    · exact h
  · exact h

/-- The end of an attempt keeps the queue within 16 (R138, R141). -/
theorem Link.dropAttempted_length {k : Link} (h : k.queue.length ≤ 16) (number : Fin 16) :
    (Link.dropAttempted number k).queue.length ≤ 16 :=
  Link.fillFreed_length (k := { k with queue := k.queue.filter fun n => !n.attempted })
    ((List.length_filter_le _ _).trans h) number

/-- An attempt that ends with its notice kept leaves the length of the queue (R138). -/
@[simp] theorem Link.keepAttempted_length (k : Link) : k.keepAttempted.queue.length = k.queue.length := by
  unfold Link.keepAttempted
  split <;> simp

/-- The stale checks keep the queue within 16 (R150). -/
theorem State.staleChecks_length {s : State} (h : s.link.queue.length ≤ 16) : s.staleChecks.link.queue.length ≤ 16 := by
  unfold State.staleChecks
  dsimp only
  split
  · obtain ⟨v, counted⟩ := State.bumps_eq .txStale (s.link.queue.takeWhile s.dropsAsStale).length s
    rw [counted]
    exact h
  · exact Link.fillFreed_length (k := { s.link with queue := s.link.queue.dropWhile s.dropsAsStale })
      ((List.dropWhile_sublist _).length_le.trans h) _

/-- An attempt keeps the queue within 16 (R132). -/
theorem State.attempt_length {s : State} (h : s.link.queue.length ≤ 16) : s.attempt.link.queue.length ≤ 16 := by
  have checked := State.staleChecks_length h
  unfold State.attempt State.beginAttempt
  split
  · dsimp only
    split
    · exact checked
    · rename_i n rest queue
      rw [queue] at checked
      exact checked
  · exact h

/-! ### What bounds each part -/

/-- The bound of each part that is a queue or a list, or holds one. -/
def State.Bound (s : State) : Part → Prop
  | .belt => s.belt.ring.length ≤ 64
  | .overrun => (s.scan.sweep.all fun w => w.overrun.length ≤ 8) = true
  | .pieces => s.former.queue.length ≤ 4
  | .slots => ∀ i : Fin 128, (s.table.slots[i].all fun e => e.reports.length ≤ 3) = true
  | .escapes => s.table.escapes.length ≤ 32
  | .openQ => s.outlets.openQ.length ≤ 32
  | .closeQ => s.outlets.closeQ.length ≤ 32
  | .gate => s.gate.history.length ≤ 4
  | .link => s.link.queue.length ≤ 16
  | .rxQueue => s.rxQueue.length ≤ 4
  | .opts | .number | .asserted | .acting | .band | .lanes | .state | .roster | .store => True

/-- The queues are bounded when every part is. -/
theorem State.queuesBounded_iff (s : State) : s.QueuesBounded ↔ ∀ p, s.Bound p := by
  constructor
  · rintro ⟨belt, overrun, pieces, slots, escapes, openQ, closeQ, gate, link, rxQueue⟩ p
    cases p <;> trivial
  · intro h
    exact ⟨h .belt, h .overrun, h .pieces, h .slots, h .escapes, h .openQ, h .closeQ, h .gate, h .link, h .rxQueue⟩

/-- The overrun list's bound is one on the list alone. -/
theorem overrun_bound_iff (w : Option Sweep) :
    (w.all fun w => w.overrun.length ≤ 8) = (w.map Sweep.overrun).all fun o => o.length ≤ 8 := by
  cases w <;> rfl

/-- A part that stays keeps its bound. -/
theorem State.Bound.of_same {s t : State} {p : Part} (h : s.Bound p) (same : p.Same s t) : t.Bound p := by
  cases p with
  | overrun =>
    unfold State.Bound at h ⊢
    dsimp only at h ⊢
    rw [overrun_bound_iff] at h ⊢
    rw [show t.scan.sweep.map Sweep.overrun = s.scan.sweep.map Sweep.overrun from same]
    exact h
  | opts | number | asserted | acting | band | lanes | state | roster | store => trivial
  | _ =>
    unfold State.Bound Part.Same at *
    dsimp only at h same ⊢
    rw [same]
    exact h

/-- A change of given parts keeps every bound when it keeps theirs. -/
theorem KeepsBut.bounded {parts : List Part} {s t : State} (frame : KeepsBut parts s t) (h : ∀ p, s.Bound p)
    (touched : ∀ p ∈ parts, t.Bound p) : ∀ p, t.Bound p := by
  intro p
  by_cases hp : p ∈ parts
  · exact touched p hp
  · exact (h p).of_same (frame.same p hp)

/-! ### The track table -/

/-- The table's own bounds, with those of the open and the transmit queue, to which it hands on. -/
structure TableBound (s : State) : Prop where
  slots : s.Bound .slots
  escapes : s.Bound .escapes
  openQ : s.Bound .openQ
  link : s.Bound .link

section Table

variable {s : State}

/-- A slot's new content keeps the bounds when its list of reports has at most three (R50). -/
theorem TableBound.setSlot (h : TableBound s) (i : Fin 128) {e : Option Entry}
    (few : (e.all fun e => e.reports.length ≤ 3) = true) : TableBound (s.setSlot i e) := by
  refine ⟨fun k => ?_, h.escapes, h.openQ, h.link⟩
  by_cases same : i = k
  · subst same
    simpa [State.setSlot] using few
  · have : i.val ≠ k.val := fun h => same (Fin.ext h)
    simpa [State.setSlot, this] using h.slots k

/-- Counting keeps the bounds. -/
theorem TableBound.bump (h : TableBound s) (c : Counter) : TableBound (s.bump c) := ⟨h.slots, h.escapes, h.openQ, h.link⟩

/-- The settlement of a piece keeps the bounds (R66). -/
theorem TableBound.settlePiece (h : TableBound s) (cause : Option DenialCause) (n : PieceNotice) :
    TableBound (s.settlePiece cause n) := by
  have counted : TableBound (s.countVerdict n.verdict cause n.cls) := by
    rcases s.countVerdict_cases n.verdict cause n.cls with ⟨k, _, _, eq⟩ | ⟨_, eq⟩ <;> rw [eq]
    · exact (h.bump _).bump _
    · exact h.bump _
  unfold State.settlePiece
  generalize s.countVerdict n.verdict cause n.cls = u at counted
  have frame := (u.requestPiece_work n).keepsBut
  exact ⟨counted.slots.of_same (frame.same _ (by simp)), counted.escapes.of_same (frame.same _ (by simp)),
    counted.openQ.of_same (frame.same _ (by simp)), State.requestPiece_length counted.link n⟩

/-- The settlement of an entry keeps the bounds (R66). -/
theorem TableBound.settleEntry (h : TableBound s) (i : Fin 128) (e : Entry) (v : Verdict) (cause : Option DenialCause) :
    TableBound (s.settleEntry i e v cause) := (h.settlePiece cause _).setSlot i rfl

/-- A decision keeps the bounds: a window joins the open queue only where there is room (R85, R91). -/
theorem TableBound.decideEntry (h : TableBound s) (rd : Reading) (i : Fin 128) {e : Entry} (few : e.reports.length ≤ 3) :
    TableBound (s.decideEntry rd i e) := by
  rcases s.decideEntry_cases rd i e with ⟨v, cause, d, -, eq⟩ | ⟨d, -, eq⟩ | ⟨d, w, window, eq⟩ <;> rw [eq]
  · exact h.settleEntry ..
  · exact h.setSlot i (by simpa using few)
  · have room := State.decision_window window
    have placed := h.setSlot i (e := some { e with state := .due, deadline := none, decision := some d }) (by simpa using few)
    refine ⟨placed.slots, placed.escapes, ?_, placed.link⟩
    exact (length_insertBehind ..).trans_le room

/-- The entry of a slot has at most three reports (R50). -/
theorem TableBound.reports (h : TableBound s) {i : Fin 128} {e : Entry} (held : s.table.slots[i] = some e) :
    e.reports.length ≤ 3 := by
  have := h.slots i
  rw [held] at this
  simpa using this

/-- Serving a local piece keeps the bounds (R54 to R56). -/
theorem TableBound.serveLocal (h : TableBound s) (rd : Reading) (p : PieceRecord) : TableBound (s.serveLocal rd p) := by
  have new : p.entry.reports.length ≤ 3 := Nat.zero_le _
  unfold State.serveLocal
  split
  · dsimp only
    split
    · rename_i e held
      have few : e.reports.length ≤ 3 := h.reports held
      exact h.decideEntry rd _ (e := e.writeLocal p) few
    · exact h
  · split
    · exact (h.bump _).settlePiece _ _
    · split
      · split
        · rename_i m _ _ r _
          have dropped : TableBound (s.dropEscape m.place) :=
            ⟨h.slots, (List.eraseIdx_sublist ..).length_le.trans h.escapes, h.openQ, h.link⟩
          have frame := ((s.dropEscape m.place).requestEscape_work ⟨r.station, r.tag, p.cls⟩).keepsBut
          refine TableBound.decideEntry ⟨?_, ?_, ?_, State.requestEscape_length dropped.link _⟩ rd _ (by simp)
          · exact dropped.slots.of_same (frame.same _ (by simp))
          · exact dropped.escapes.of_same (frame.same _ (by simp))
          · exact dropped.openQ.of_same (frame.same _ (by simp))
        · exact h.decideEntry rd _ new
      · exact h.decideEntry rd _ new

/-- Serving a receive record keeps the bounds (R50, R57 to R60, R69). -/
theorem TableBound.serveReceived (h : TableBound s) (rd : Reading) (r : ReceiveRecord) : TableBound (s.serveReceived rd r) := by
  have watched : ∀ x : EscapeRecord, TableBound (if s.opts.scan = true then s.watch x else s) := by
    intro x
    obtain ⟨-, length⟩ := s.watch_work x
    have frame : KeepsBut [.escapes] s (s.watch x) := by
      unfold State.watch
      split
      · simp [keepsBut_iff]
      · split
        · exact .ite (by simp [keepsBut_iff]) (by simp [keepsBut_iff])
        · simp [keepsBut_iff]
    split
    · exact ⟨h.slots.of_same (frame.same _ (by simp)), length h.escapes, h.openQ.of_same (frame.same _ (by simp)),
        h.link.of_same (frame.same _ (by simp))⟩
    · exact h
  have joined : ∀ (i : Fin 128) (p : PeerReport), TableBound (s.joinEntry i p) := by
    intro i p
    unfold State.joinEntry
    split
    · rename_i e held
      have fewer := h.setSlot i (e := some { e with reports := joinReport e.reports p })
        (by simpa using length_joinReport _ _ (h.reports held))
      dsimp only
      split
      · exact fewer
      · exact fewer.bump _
    · exact h
  have expected : ∀ (p : PeerReport) (half : Nat), TableBound (s.expect rd p half) := by
    intro p half
    have drawn : TableBound s.drawTag := ⟨h.slots, h.escapes, h.openQ, h.link⟩
    unfold State.expect
    split
    · exact h.bump _
    · split
      · exact h.setSlot _ (by simp [PeerReport.entry])
      · dsimp only
        split
        · exact drawn.decideEntry rd _ (by simp [PeerReport.entry])
        · exact drawn.setSlot _ (by simp [PeerReport.entry])
  have reported : ∀ (p : PeerReport) (half : Nat), TableBound
      (match chooseMatch (s.reportMatches p half) with
        | some m => s.joinEntry (Fin.ofNat 128 m.place) p
        | none => s.expect rd p half) := by
    intro p half
    split
    · exact joined ..
    · exact expected ..
  unfold State.serveReceived
  dsimp only
  split
  · exact h.bump _
  · split
    · exact watched _
    · exact watched _
    · exact watched _
    · exact reported ..
    · exact reported ..
    · exact reported ..
    · exact reported ..

/-- Serving the deadline request keeps the bounds (R62 to R65, R70). -/
theorem TableBound.serveDeadline (h : TableBound s) (rd : Reading) : TableBound (s.serveDeadline rd) := by
  unfold State.serveDeadline
  split
  · exact ⟨h.slots, (List.eraseIdx_sublist ..).length_le.trans h.escapes, h.openQ, h.link⟩
  · split
    · rename_i e held
      split
      · unfold State.serveExpected
        split
        · exact (h.bump _).setSlot _ rfl
        · refine h.decideEntry rd _ ?_
          have few := h.reports held
          unfold Entry.takeGeometry
          split <;> exact few
      · unfold State.servePassing
        split <;> exact h.settleEntry ..
    · exact h
  · exact h

/-- Serving any request keeps the bounds. -/
theorem TableBound.serve (h : TableBound s) (rd : Reading) (r : TableRequest) : TableBound (s.serve rd r) := by
  cases r with
  | report r =>
    cases r with
    | opened i granted flags =>
      simp only [State.serve, State.serveReport]
      split
      · rename_i e held
        exact h.setSlot i (by simpa [Entry.writeGrant] using h.reports held)
      · exact h
    | settled i v cause flags =>
      simp only [State.serve, State.serveReport]
      split
      · exact h.settleEntry ..
      · exact h
  | localPiece p => exact h.serveLocal rd p
  | received r => exact h.serveReceived rd r
  | deadline => exact h.serveDeadline rd

end Table

/-- A record that leaves its queue leaves no queue longer (R51). -/
theorem State.popRequest_bounded {s : State} (h : ∀ p, s.Bound p) (c : Claimant) : ∀ p, (s.popRequest c).Bound p := by
  have frame : KeepsBut [.pieces, .rxQueue] s (s.popRequest c) := by
    obtain ⟨q, x, r, eq⟩ := s.popRequest_eq c
    simp [eq, keepsBut_iff]
  have shorter : ∀ {α : Type} {q : List α}, q.length ≤ 4 → (q.drop 1).length ≤ 4 := fun h => by simp; omega
  have pieces : s.former.queue.length ≤ 4 := h .pieces
  have rxQueue : s.rxQueue.length ≤ 4 := h .rxQueue
  refine frame.bounded h fun p hp => ?_
  simp only [List.mem_cons, List.not_mem_nil, or_false] at hp
  rcases hp with rfl | rfl <;> cases c
  · exact pieces
  · exact shorter pieces
  · exact pieces
  · exact pieces
  · exact rxQueue
  · exact rxQueue
  · exact shorter rxQueue
  · exact rxQueue

/-- A request taken and served keeps every bound (R51). -/
theorem State.request_bounded {s : State} (h : ∀ p, s.Bound p) (c : Claimant) (test : TableRequest → Bool) :
    ∀ p, (s.request c test).Bound p := by
  rcases s.request_cases c test with ⟨-, eq⟩ | ⟨f, t, taken, eq⟩ <;> rw [eq]
  · exact h
  · have popped : ∀ p, t.Bound p := by
      obtain ⟨-, ⟨-, rfl⟩ | ⟨-, -, -, -, rfl⟩⟩ := State.takeRequest_cases taken
      · exact fun p => (h p).of_same (by cases p <;> simp [Part.Same])
      · exact State.popRequest_bounded h c
    have served := TableBound.serve (s := t) ⟨popped _, popped _, popped _, popped _⟩ (f.reading.getD t.reading) f.request
    refine (t.serve_work _ f.request).keepsBut.bounded popped fun p hp => ?_
    simp only [List.mem_cons, List.not_mem_nil, or_false] at hp
    rcases hp with rfl | rfl | rfl | rfl
    · exact served.slots
    · exact served.escapes
    · exact served.openQ
    · exact served.link

end Sys2Proof.Machine
end

section
/-! PROOFS. The bounds of the queues and lists under every command. -/

namespace Sys2Proof.Machine

/-! ### Belt, scan unit and former -/

/-- The arbiter keeps the overrun list's bound (R17). -/
theorem Scan.arbitrate_overrun {c : Scan} (h : (c.sweep.all fun w => w.overrun.length ≤ 8) = true) :
    (c.arbitrate.sweep.all fun w => w.overrun.length ≤ 8) = true := by
  rw [overrun_bound_iff] at h ⊢
  rwa [c.arbitrate_keeps.2]

/-- A row trigger keeps the overrun list within 8 (R23). -/
theorem State.trigger_overrun {s : State} (h : s.Bound .overrun) (row : Count) : (s.trigger row).Bound .overrun := by
  unfold State.trigger
  split
  · split
    · exact Scan.arbitrate_overrun rfl
    · rename_i w flight
      have few : w.overrun.length ≤ 8 := by
        unfold State.Bound at h
        dsimp only at h
        simpa [flight] using h
      unfold State.Bound
      simp only [State.bump_scan, Option.all_some, decide_eq_true_eq]
      split
      · simp; omega
      · exact few
  · exact h

/-- The history only shrinks as intervals expire (R113). -/
theorem Gate.expire_history (g : Gate) (count : Count) : (g.expire count).history.length ≤ g.history.length :=
  List.length_filter_le _ _

/-- Calling the gate out leaves its history (R113). -/
theorem Gate.takeHolder_history (g : Gate) (count : Count) (L : Nat) : (g.takeHolder count L).history = g.history := by
  have out : ∀ g : Gate, (g.callOut count L).history = g.history := by
    intro g
    unfold Gate.callOut
    dsimp only
    split <;> rfl
  unfold Gate.takeHolder
  dsimp only
  split
  · exact out _
  · exact out _
  · rfl
  · rfl
  · rfl

/-- Sending the gate back keeps its history within four (R113). -/
theorem Gate.sendBack_history {g : Gate} (h : g.history.length ≤ 4) (count : Count) (L : Nat) :
    (g.sendBack count L).history.length ≤ 4 := by
  have ended := g.endInterval_history (shift count L) h
  unfold Gate.sendBack
  dsimp only
  split <;> exact ended

/-! ### The outlets (R91, R113) -/

/-- A front pass of outlet work that leaves the open queue leaves a rest of the list it goes through. -/
theorem frontPass_openQ {isDue : Window → Bool} {act : Window → State → State} :
    ∀ (q : List Window) (s : State), (frontPass isDue act q s).outlets.openQ.length ≤ q.length
  | [], _ => Nat.le_refl _
  | w :: rest, s => by
    unfold frontPass
    split
    · exact (frontPass_openQ rest _).trans (Nat.le_succ _)
    · exact Nat.le_refl _

/-- A close event leaves the two queues (R102, R117). -/
theorem State.closeEvent_queues (s : State) (L : Nat) (w : Window) :
    (s.closeEvent L w).outlets.openQ = s.outlets.openQ ∧ (s.closeEvent L w).outlets.closeQ = s.outlets.closeQ := by
  unfold State.closeEvent
  split
  · simp [State.laneCloseEvent]
  · rw [(s.gateCloseEvent_gate L w).2.2]
    exact ⟨rfl, rfl⟩
  · exact ⟨rfl, rfl⟩

/-- A run of close events leaves the two queues. -/
theorem foldl_closeEvent_queues {L : Nat} : ∀ (ws : List Window) (s : State),
    (ws.foldl (fun s w => s.closeEvent L w) s).outlets.openQ = s.outlets.openQ ∧
      (ws.foldl (fun s w => s.closeEvent L w) s).outlets.closeQ = s.outlets.closeQ
  | [], _ => ⟨rfl, rfl⟩
  | w :: ws, s => by
    obtain ⟨openQ, closeQ⟩ := foldl_closeEvent_queues ws (s.closeEvent L w)
    obtain ⟨openQ', closeQ'⟩ := s.closeEvent_queues L w
    exact ⟨openQ.trans openQ', closeQ.trans closeQ'⟩

/-- The holder test at a step leaves the two queues (R118). -/
theorem State.holdStep_outlets (s : State) (L : Nat) : (s.holdStep L).outlets = s.outlets := by
  unfold State.holdStep
  split <;> rfl

/-- The outlets' work at a step leaves no more windows in the open queue (R94, R97, R98). -/
theorem State.outletStep_openQ (s : State) (became : Bool) :
    (s.outletStep became).outlets.openQ.length ≤ s.outlets.openQ.length := by
  have held : ∀ (u : State) (L : Nat), (if u.blocked = true then u else u.holdStep L).outlets = u.outlets := by
    intro u L
    split
    · rfl
    · exact u.holdStep_outlets L
  unfold State.outletStep
  dsimp only
  split
  · rw [held]
    split
    · exact frontPass_openQ _ _
    · split
      · exact frontPass_openQ _ _
      · unfold State.duePasses
        dsimp only
        rw [(foldl_closeEvent_queues _ _).1]
        exact frontPass_openQ _ _
  · exact Nat.le_refl _

/-- The close queue has at most 32 windows and the history at most four intervals (R91, R113). -/
def State.OutletsBound (s : State) : Prop := s.outlets.closeQ.length ≤ 32 ∧ s.gate.history.length ≤ 4

/-- An open event joins the close queue only where there is room (R99, R114). -/
theorem State.OutletsBound.opens {s : State} (h : s.OutletsBound) (L : Nat) (w : Window) : (s.openEvent L w).OutletsBound := by
  obtain ⟨queue, history⟩ := h
  unfold State.openEvent
  split
  · unfold State.laneOpenEvent
    split
    · exact ⟨queue, history⟩
    · dsimp only
      split
      · exact ⟨queue, history⟩
      · exact ⟨by simp only [State.issue_outlets, length_insertBehind]; omega, history⟩
  · unfold State.gateOpenEvent
    split
    · exact ⟨queue, history⟩
    · refine ⟨by simp only [State.issue_outlets, length_insertBehind]; omega, ?_⟩
      simpa [Gate.takeHolder_history] using history
  · exact ⟨queue, history⟩

/-- A close event leaves the history within four (R113, R117). -/
theorem State.OutletsBound.closes {s : State} (h : s.OutletsBound) (L : Nat) (w : Window) :
    (s.closeEvent L w).OutletsBound := by
  refine ⟨by rw [(s.closeEvent_queues L w).2]; exact h.1, ?_⟩
  unfold State.closeEvent
  split
  · exact h.2
  · unfold State.gateCloseEvent
    dsimp only
    split
    · split
      · exact h.2
      · exact Gate.sendBack_history (g := { s.gate with holders := s.gate.holders - 1 }) h.2 _ _
    · exact h.2
  · exact h.2

/-- A run of close events keeps the bounds. -/
theorem foldl_closeEvent_bound {L : Nat} : ∀ (ws : List Window) {s : State}, s.OutletsBound →
    (ws.foldl (fun s w => s.closeEvent L w) s).OutletsBound
  | [], _, h => h
  | w :: ws, _, h => foldl_closeEvent_bound ws (h.closes L w)

/-- The outlets' work at a step keeps the close queue and the history within their bounds (R91, R113). -/
theorem State.OutletsBound.outletStep {s : State} (h : s.OutletsBound) (became : Bool) :
    (s.outletStep became).OutletsBound := by
  refine State.outletStep_keeps (P := State.OutletsBound) (fun _ _ h => h) (fun u c h => ⟨h.1, (u.gate.expire_history c).trans h.2⟩)
    (fun _ _ h => h) (fun _ L w _ _ h => h.opens L w) (fun u L isDue fresh h => ?_) (fun u L h => ?_) s became h
  · have parts := (splitClosing_perm isDue fresh u.outlets.closeQ).length_eq
    rw [List.length_append] at parts
    refine foldl_closeEvent_bound _ ⟨?_, h.2⟩
    have := h.1
    rw [State.setCloseQ_outlets]
    dsimp only
    omega
  · unfold State.holdStep
    split
    · exact ⟨h.1, Gate.sendBack_history h.2 _ _⟩
    · exact h

/-- An encoder edge keeps every bound (R7, R23, R91, R113). -/
theorem State.encoderEdge_bounded {s : State} (h : ∀ p, s.Bound p) (a b : Bool) : ∀ p, (s.encoderEdge a b).Bound p := by
  have outlets : ∀ (u : State) (became : Bool), (∀ p, u.Bound p) → ∀ p, (u.outletStep became).Bound p := by
    intro u became hu
    have bound := State.OutletsBound.outletStep (s := u) ⟨hu .closeQ, hu .gate⟩ became
    refine (u.outletStep_work became).keepsBut.bounded hu fun p hp => ?_
    simp only [List.mem_cons, List.not_mem_nil, or_false] at hp
    rcases hp with rfl | rfl | rfl | rfl
    · exact (u.outletStep_openQ became).trans (hu .openQ)
    · exact bound.1
    · trivial
    · exact bound.2
  have belts : ∀ (u : State) (b : Belt) v, b.ring.length ≤ 64 → (∀ p, u.Bound p) →
      ∀ p, State.Bound { u with belt := b, counters := v } p := by
    intro u b v ring hu p
    cases p with
    | belt => exact ring
    | opts | number | asserted | acting | band | lanes | state | roster | store => trivial
    | overrun => exact hu .overrun
    | pieces => exact hu .pieces
    | slots => exact hu .slots
    | escapes => exact hu .escapes
    | openQ => exact hu .openQ
    | closeQ => exact hu .closeQ
    | gate => exact hu .gate
    | link => exact hu .link
    | rxQueue => exact hu .rxQueue
  have row : ∀ u : State, (∀ p, u.Bound p) → ∀ p, u.rowTest.Bound p := by
    intro u hu
    unfold State.rowTest
    split
    · have bounded := belts u { u.belt with lastRow := some u.belt.count } u.counters (hu .belt) hu
      generalize ({ u with belt := { u.belt with lastRow := some u.belt.count } } : State) = t at bounded
      refine (t.trigger_keepsBut u.belt.count).bounded bounded fun p hp => ?_
      rw [List.mem_singleton] at hp
      subst hp
      exact State.trigger_overrun (bounded .overrun) _
    · exact hu
  have ring : s.belt.ring.length ≤ 64 := h .belt
  have start := belts s { s.belt with encA := a, encB := b } s.counters ring h
  unfold State.encoderEdge State.takeEdge
  split
  · exact start
  · split
    · exact outlets _ _ (row _ (belts _ _ _ (Belt.forwardStep_ring _ _ ring) start))
    · exact belts _ _ _ ring start
  · split
    · exact belts _ _ _ ring start
    · exact belts _ _ _ ring start
  · exact belts _ _ _ ring start

/-- An auxiliary conversion keeps the outlets' bounds (R25, R105). -/
theorem State.completeAux_queues (s : State) (r : Raw) : (s.completeAux r).gate = s.gate ∧
    (s.completeAux r).outlets.closeQ.length = s.outlets.closeQ.length ∧
    (s.completeAux r).outlets.openQ = s.outlets.openQ := by
  have excess : ∀ (k : Nat) (u : State), (closeExcess k u).outlets.openQ = u.outlets.openQ := by
    intro k
    induction k with
    | zero => exact fun _ => rfl
    | succ k ih =>
      intro u
      unfold closeExcess
      split
      · exact ih _
      · rfl
  unfold State.completeAux
  split
  · rename_i ch _
    split
    · obtain ⟨gate, queue⟩ := s.takeAux_queue ch (auxValue r)
      refine ⟨gate, queue, ?_⟩
      simp only [State.releaseConverter_outlets, State.takeAux]
      split
      · split
        · split
          · rfl
          · exact excess _ _
        · rfl
      · rfl
    · exact ⟨rfl, rfl, rfl⟩
  · exact ⟨rfl, rfl, rfl⟩

/-! ### The commands -/

/-- A READ ENTRY keeps every bound (R177, log 6). -/
theorem State.readEntry_bounded {s : State} (h : ∀ p, s.Bound p) (inFlight : Option Claimant) (n : Fin 128) (part : Nat) :
    ∀ p, (s.readEntry inFlight n part).Bound p := by
  have begun : ∀ c, ∀ p, (s.startRequest c none).Bound p := by
    intro c
    unfold State.startRequest
    split
    · split
      · have popped := State.popRequest_bounded h c
        exact fun p => (popped p).of_same (by cases p <;> simp [Part.Same])
      · exact h
    · exact h
  have answered : ∀ u : State, (∀ p, u.Bound p) → ∀ p,
      (if u.table.inFlight.isSome = true then { u with port := { u.port with deferred := some (n, part) } }
        else u.answer .ok (u.entryPart n part)).Bound p := by
    intro u hu p
    split
    · exact (hu p).of_same (by cases p <;> simp [Part.Same])
    · exact (hu p).of_same (by cases p <;> simp [Part.Same])
  unfold State.readEntry
  dsimp only
  split
  · refine answered _ ?_
    split
    · exact begun _
    · exact h
  · exact answered _ h

/-- The link's own commands keep the queue within 16 (R138, R140, R141). -/
theorem Link.commands_length {k : Link} (h : k.queue.length ≤ 16) :
    (∀ samples, (k.startEdge samples).queue.length ≤ 16) ∧ (∀ n, (k.lose n).queue.length ≤ 16) ∧
      (∀ s count, (k.latchCount s count).queue.length ≤ 16) ∧ (∀ rate, (Link.breakEnd rate k).queue.length ≤ 16) ∧
      (∀ number, (Link.complete number k).queue.length ≤ 16) ∧ k.lineClear.queue.length ≤ 16 := by
  refine ⟨fun samples => ?_, fun n => ?_, fun s count => ?_, fun rate => ?_, fun number => ?_, ?_⟩
  · obtain ⟨v, i, d, read⟩ := k.readSamples_eq samples
    unfold Link.startEdge
    rw [read]
    split
    · dsimp only
      split <;> exact h
    · exact h
  · unfold Link.lose
    split
    · simpa using h
    · exact h
  · have won : k.win.queue.length ≤ 16 := by
      rcases k.win_eq with ⟨-, eq⟩ | ⟨-, eq⟩ <;> rw [eq] <;> exact h
    unfold Link.latchCount
    split
    · exact won
    · exact won
    · exact h
    · exact h
  · unfold Link.breakEnd
    split
    · split <;> exact h
    · exact h
  · unfold Link.complete
    split
    · exact Link.dropAttempted_length h number
    · exact h
  · unfold Link.lineClear
    split <;> exact h

/-- An act that changes the link alone keeps every bound when it keeps the queue within 16. -/
theorem KeepsBut.bounded_link {s t : State} (frame : KeepsBut [.link] s t) (h : ∀ p, s.Bound p)
    (link : t.link.queue.length ≤ 16) : ∀ p, t.Bound p := by
  refine frame.bounded h fun p hp => ?_
  rw [List.mem_singleton] at hp
  subst hp
  exact link

/-- A PIECE joins the receive queue only where there is room (R156). -/
theorem State.takePiece_rxQueue {s : State} (h : s.rxQueue.length ≤ 4) (n : Fin 16) (payload : List Byte) (latch : Count) :
    (s.takePiece n payload latch).rxQueue.length ≤ 4 := by
  unfold State.takePiece
  split
  · exact h
  · split
    · exact h
    · split
      · exact h
      · split
        · unfold State.offerRecord
          split
          · simp; omega
          · exact h
        · exact h

/-- A replaced roster slot leaves the receive queue. -/
@[simp] theorem State.setRoster_rxQueue (s : State) (n : Fin 16) (r : RosterSlot) : (s.setRoster n r).rxQueue = s.rxQueue :=
  (s.setRoster_keepsBut n r).same .rxQueue (by simp)

/-- A frame of another number keeps the receive queue within four (R152, R156). -/
theorem State.dispatch_rxQueue {s : State} (h : s.rxQueue.length ≤ 4) (n : Fin 16) (kind : Nat) (payload : List Byte)
    (latch : Count) : (s.dispatch n kind payload latch).rxQueue.length ≤ 4 := by
  have heard : (s.hear n).rxQueue.length ≤ 4 := by simpa [State.hear] using h
  unfold State.dispatch
  dsimp only
  split
  · unfold State.takeHello
    split
    · simpa using heard
    · exact heard
  · split
    · exact State.takePiece_rxQueue heard _ _ _
    · unfold State.takeEscape
      split
      · split <;> exact heard
      · exact heard

/-- A valid frame keeps the transmit and the receive queue within their bounds (R136, R156). -/
theorem State.validFrame_bounded {s : State} (h : ∀ p, s.Bound p) (rx : List LineByte) : ∀ p, (s.validFrame rx).Bound p := by
  have link : s.link.queue.length ≤ 16 := h .link
  have received : s.rxQueue.length ≤ 4 := h .rxQueue
  have taken : (s.validFrame rx).link.queue.length ≤ 16 ∧ (s.validFrame rx).rxQueue.length ≤ 4 := by
    unfold State.validFrame
    split
    · rename_i latch arb kl payload _ _ _
      unfold State.takeFrame
      dsimp only
      split
      · unfold State.takeOwnNumber
        split
        · exact ⟨link, received⟩
        · exact ⟨Nat.zero_le _, received⟩
      · have kept : (s.endReception.dispatch (arbStation arb) (kindOf kl) payload latch).link = s.endReception.link :=
          (State.dispatch_keepsBut ..).same .link (by simp)
        exact ⟨(congrArg (fun k : Link => k.queue.length) kept).trans_le link,
          State.dispatch_rxQueue (s := s.endReception) received ..⟩
    · exact ⟨link, received⟩
  refine (s.validFrame_keepsBut rx).bounded h fun p hp => ?_
  simp only [List.mem_cons, List.not_mem_nil, or_false] at hp
  rcases hp with rfl | rfl | rfl
  · exact taken.1
  · trivial
  · exact taken.2

/-- A change of the gate keeps its history within four (R113). -/
theorem State.enterGateFault_history {s : State} (h : s.gate.history.length ≤ 4) :
    s.enterGateFault.gate.history.length ≤ 4 := by
  unfold State.enterGateFault
  exact s.gate.endInterval_history _ h

/-- A switch event keeps the history within four (R115, R120). -/
theorem State.switched_history {s : State} (h : s.gate.history.length ≤ 4) : s.switched.gate.history.length ≤ 4 := by
  unfold State.switched
  split
  · split
    · exact h
    · exact State.enterGateFault_history h
    · exact State.enterGateFault_history h
    · exact State.enterGateFault_history h
    · exact State.enterGateFault_history h
  · split
    · split <;> exact h
    · split <;> exact h
    · split <;> exact h
    · exact h
    · exact h

/-- Every command keeps every bound before it is handed on. -/
theorem State.act_bounded {c : Instr} (other : c.actsInReset = false) {e : State} (h : ∀ p, e.Bound p) :
    ∀ p, (e.act c).Bound p := by
  have frame := State.act_keepsBut other e
  have queue : e.link.queue.length ≤ 16 := h .link
  have history : e.gate.history.length ≤ 4 := h .gate
  obtain ⟨edge, lost, latched, broken, sent, cleared⟩ := Link.commands_length queue
  cases c with
  | encoderEdge l a b =>
    refine State.encoderEdge_bounded ?_ a b
    cases between : l.between with
    | none => exact h
    | some c =>
      have flights : ∀ (u : State) f, (∀ p, u.Bound p) → ∀ p, (u.setFlight f).Bound p :=
        fun u f hu p => (hu p).of_same (by cases p <;> simp [Part.Same])
      simp only [State.readAhead, State.callAhead, State.startRequest]
      split
      · split
        · exact flights _ _ h
        · exact h
      · exact h
      · split
        · split
          · exact flights _ _ (State.popRequest_bounded h c)
          · exact h
        · exact h
  | stepSilenceExpiry l =>
    refine frame.bounded h fun p hp => ?_
    simp only [Instr.parts, List.mem_singleton] at hp
    subst hp
    have ring : e.belt.ring.length ≤ 64 := h .belt
    simp only [State.act, State.silenceExpiry]
    split
    · split
      · exact ring
      · split <;> exact ring
    · exact ring
  | sweepComplete l raw curtain =>
    refine frame.bounded h fun p hp => ?_
    simp only [Instr.parts, List.mem_singleton] at hp
    subst hp
    simp only [State.act, State.completeSweep]
    split
    · split
      · exact Scan.arbitrate_overrun rfl
      · exact h .overrun
    · exact h .overrun
  | auxiliaryConversionComplete l result =>
    obtain ⟨gate, closeQ, openQ⟩ := e.completeAux_queues result
    refine frame.bounded h fun p hp => ?_
    simp only [Instr.parts, List.mem_cons, List.not_mem_nil, or_false] at hp
    rcases hp with rfl | rfl | rfl | rfl | rfl
    · trivial
    · exact (congrArg List.length openQ).trans_le (h .openQ)
    · exact closeQ.trans_le (h .closeQ)
    · trivial
    · exact (congrArg (fun g : Gate => g.history.length) gate).trans_le history
  | rowRecord l =>
    refine frame.bounded h fun p hp => ?_
    simp only [Instr.parts, List.mem_singleton] at hp
    subst hp
    simp only [State.act, State.nextRow]
    split
    · exact (State.makeOffers_eq _ _).2 (h .pieces)
    · exact (State.makeOffers_eq _ _).2 (h .pieces)
  | opened | settled | localPiece | receiveRecord | deadlineRequest => exact State.request_bounded h _ _
  | maxOnTrip l lane =>
    refine frame.bounded h fun p hp => ?_
    simp only [Instr.parts, List.mem_cons, List.not_mem_nil, or_false] at hp
    rcases hp with rfl | rfl
    · have queued : e.outlets.closeQ.length ≤ 32 := h .closeQ
      simp only [State.act, State.tripLane]
      split
      · exact (length_loseLane lane _).trans_le queued
      · exact queued
    · trivial
  | switchEvent l sw high =>
    refine frame.bounded h fun p hp => ?_
    simp only [Instr.parts, List.mem_singleton] at hp
    subst hp
    simp only [State.act, State.switchEvent]
    split
    · refine State.switched_history ?_
      cases sw <;> exact history
    · exact history
  | travelTimeout l =>
    refine frame.bounded h fun p hp => ?_
    simp only [Instr.parts, List.mem_singleton] at hp
    subst hp
    simp only [State.act, State.travelTimeout]
    split
    · exact State.enterGateFault_history history
    · exact history
  | busFree l => exact frame.bounded_link h (State.attempt_length queue)
  | startEdge l samples => exact frame.bounded_link h (edge samples)
  | arbitrationLost l k => exact frame.bounded_link h (lost k)
  | latchCount l => exact frame.bounded_link h (latched _ _)
  | breakEnd l => exact frame.bounded_link h (broken _)
  | transmitCompletion l => exact frame.bounded_link h (sent _)
  | lineFaultEnd l => exact frame.bounded_link h cleared
  | bitError l bit =>
    refine frame.bounded_link h ?_
    simp only [State.act, State.bitError]
    split
    · exact Link.dropAttempted_length queue _
    · exact queue
  | lineFault l =>
    refine frame.bounded_link h ?_
    simp only [State.act, State.lineStuck]
    split
    · exact (Link.keepAttempted_length _).trans_le queue
    · exact queue
  | frameDiscard l rx =>
    refine frame.bounded_link h ?_
    simp only [State.act, State.discardFrame]
    split
    · split <;> exact queue
    · exact queue
  | helloTimerExpiry l =>
    refine frame.bounded_link h ?_
    simp only [State.act, State.helloExpiry]
    split
    · split
      · exact State.requestHello_length queue
      · exact queue
    · exact queue
  | validFrame l rx => exact State.validFrame_bounded h rx
  | readEntry t inFlight =>
    refine State.transact_keeps (P := fun s => ∀ p, s.Bound p) (fun s st d hs p => ?_) (fun s hs p => ?_)
      (fun s hs => State.readEntry_bounded hs _ _ _) h t _ _
    · exact (hs p).of_same (by cases p <;> simp [Part.Same])
    · exact (hs p).of_same (by cases p <;> simp [Part.Same, State.discardResponse])
  | powerOn | coreSupplyDrop | resetPin | optionWriteCompleted | supplyRise | resetPinHigh | resetEnd => cases other
  | _ =>
    refine (frame.mono (more := [.lanes, .state, .roster, .store]) (by simp [Instr.parts])).bounded h fun p hp => ?_
    simp only [List.mem_cons, List.not_mem_nil, or_false] at hp
    rcases hp with rfl | rfl | rfl | rfl <;> trivial

/-- Cutting the windows of the close queue leaves it empty and the history within four (R96, R119). -/
theorem State.beginBlocking_bounded {s : State} (h : ∀ p, s.Bound p) : ∀ p, s.beginBlocking.Bound p := by
  have history : s.gate.history.length ≤ 4 := h .gate
  have cut := foldl_cutWindow_eq s.outlets.closeQ (s.setCloseQ [])
  have queues : s.beginBlocking.outlets.openQ = s.outlets.openQ ∧ s.beginBlocking.outlets.closeQ = [] ∧
      s.beginBlocking.gate.history.length ≤ 4 := by
    unfold State.beginBlocking
    dsimp only
    generalize s.outlets.closeQ.foldl State.cutWindow (s.setCloseQ []) = u at cut
    have openQ : u.outlets.openQ = s.outlets.openQ := by rw [cut]; rfl
    have closeQ : u.outlets.closeQ = [] := by rw [cut]; rfl
    have kept : u.gate.history = s.gate.history := by rw [cut]; rfl
    rw [← kept] at history
    split
    · exact ⟨openQ, closeQ, Gate.sendBack_history history _ _⟩
    · exact ⟨openQ, closeQ, history⟩
  obtain ⟨openQ, closeQ, kept⟩ := queues
  refine s.beginBlocking_work.keepsBut.bounded h fun p hp => ?_
  simp only [List.mem_cons, List.not_mem_nil, or_false] at hp
  rcases hp with rfl | rfl | rfl | rfl
  · exact (congrArg List.length openQ).trans_le (h .openQ)
  · exact (congrArg List.length closeQ).trans_le (Nat.zero_le _)
  · trivial
  · exact kept

/-- The hand-on keeps every bound (R96, R132, R165). -/
theorem handOn_bounded {e a : State} (h : ∀ p, a.Bound p) : ∀ p, (handOn e a).Bound p := by
  have blocked : ∀ p, (blockIfBegun e a).Bound p := by
    unfold blockIfBegun
    split
    · exact State.beginBlocking_bounded h
    · exact h
  refine (handOn_keepsBut e a).bounded_link blocked ?_
  have queue : (attend e (blockIfBegun e a)).link.queue.length ≤ 16 := blocked .link
  have announced : (announce e (attend e (blockIfBegun e a))).link.queue.length ≤ 16 := by
    unfold announce
    split
    · exact State.requestHello_length queue
    · exact queue
  have attempted : (attemptIfReady e (announce e (attend e (blockIfBegun e a)))).link.queue.length ≤ 16 := by
    unfold attemptIfReady
    split
    · exact announced
    · exact State.attempt_length announced
  obtain ⟨c, marked⟩ := markTied_eq e (attemptIfReady e (announce e (attend e (blockIfBegun e a))))
  unfold handOn
  dsimp only
  rw [marked]
  exact attempted

/-- Time leaves every queue and list (R7, R107). -/
theorem State.pass_bounded {s : State} (h : ∀ p, s.Bound p) (v : Level) (n : Nat) : ∀ p, (s.pass v n).Bound p := by
  unfold State.pass
  split
  · exact h
  · split
    · exact KeepsBut.bounded_link (s := s) (by simp [keepsBut_iff, Rst.acting]) h (h .link)
    · intro p
      cases p with
      | belt => exact h .belt
      | openQ => exact (congrArg List.length (Outlets.pass_openQ n s.outlets)).trans_le (h .openQ)
      | closeQ => exact (congrArg List.length (Outlets.pass_closeQ n s.outlets)).trans_le (h .closeQ)
      | gate => exact h .gate
      | link => exact (congrArg List.length (Link.pass_queue _ v n s.link)).trans_le (h .link)
      | asserted | acting | roster | lanes => trivial
      | _ => exact (h _).of_same rfl

/-- Every queue is empty after reset. -/
theorem State.bounded_of_empty {s : State} (belt : s.belt.ring = []) (scan : s.scan.sweep = none) (former : s.former.queue = [])
    (table : s.table = .afterReset) (outlets : s.outlets = .afterReset) (gate : s.gate.history = [])
    (link : s.link.queue = []) (rxQueue : s.rxQueue = []) : ∀ p, s.Bound p := by
  intro p
  cases p with
  | slots =>
    intro i
    rw [table]
    simp [Table.afterReset]
  | _ => simp [State.Bound, belt, scan, former, table, outlets, gate, link, rxQueue, Table.afterReset, Outlets.afterReset]

/-- Settles O58: each part that a command or the hand-on changes keeps its bound, and every other part stays. -/
theorem queuesStayBounded : Obligations.QueuesStayBounded := by
  unfold Obligations.QueuesStayBounded
  intro s t holds next
  rw [State.queuesBounded_iff] at holds ⊢
  refine step_keeps (P := fun s => ∀ p, s.Bound p) (fun s q h p => ?queue) (fun _ v n h => State.pass_bounded h v n)
    (fun c e _ other h => handOn_bounded (State.act_bounded other h)) ?logic
    (fun e _ => State.bounded_of_empty rfl rfl rfl rfl rfl rfl rfl rfl) holds next
  case queue => exact (h p).of_same (by cases p <;> simp [Part.Same])
  case logic =>
    intro c e acts h
    cases c with
    | powerOn | coreSupplyDrop | resetPin => exact State.bounded_of_empty rfl rfl rfl rfl rfl rfl rfl rfl
    | supplyRise | resetPinHigh =>
      intro p
      cases p with
      | asserted | acting => trivial
      | roster => trivial
      | _ => exact (h _).of_same rfl
    | optionWriteCompleted =>
      simp only [State.act, State.writeCompleted]
      split
      · exact State.bounded_of_empty rfl rfl rfl rfl rfl rfl rfl rfl
      · exact h
    | resetEnd l pins =>
      rcases e.endReset_cases pins with ⟨-, ends⟩ | ⟨-, ends⟩ <;> rw [State.act, ends]
      · exact State.bounded_of_empty rfl rfl rfl rfl rfl rfl rfl rfl
      · exact h
    | _ => cases acts

end Sys2Proof.Machine
end

section
/-! PROOFS. The transmit queue's promises (R140, R141). -/

namespace Sys2Proof.Machine

/-! ### A sound queue -/

/-- A transmit queue of which at most the given number of notices may be attempted, and a pending HELLO beside it, as R140 and
R141 give them. -/
structure QueueSound (attempts : Nat) (q : List Notice) (waiting : Option HelloFields) : Prop where
  length : q.length ≤ 16
  hellos : (q.countP fun n => n.isHello) ≤ 1
  ordered : q.Pairwise fun a b => a.arb ≤ b.arb
  attempted : (q.countP fun n => n.attempted) ≤ attempts
  waits : waiting.isSome → (q.any fun n => n.isHello && n.attempted) ∨ (16 ≤ q.length ∧ q.all fun n => !n.isHello)

/-- The promise of the link is one on its queue and its pending HELLO. -/
theorem Link.transmitQueueSound_iff (k : Link) :
    k.TransmitQueueSound ↔ QueueSound (bit k.state.attempting) k.queue k.waiting :=
  ⟨fun ⟨length, hellos, ordered, attempted, waits⟩ => ⟨length, hellos, ordered, attempted, waits⟩,
    fun ⟨length, hellos, ordered, attempted, waits⟩ => ⟨length, hellos, ordered, attempted, waits⟩⟩

/-- Of a list with at most one member of a kind, two members of the kind are one. -/
theorem eq_of_countP_le_one {α : Type} {p : α → Bool} {l : List α} (h : l.countP p ≤ 1) {a b : α} (ha : a ∈ l) (pa : p a = true)
    (hb : b ∈ l) (pb : p b = true) : a = b := by
  rw [List.countP_eq_length_filter] at h
  have ha' := List.mem_filter.mpr ⟨ha, pa⟩
  have hb' := List.mem_filter.mpr ⟨hb, pb⟩
  obtain ⟨x, hx⟩ := List.length_eq_one_iff.mp (le_antisymm h (List.length_pos_of_mem ha'))
  rw [hx, List.mem_singleton] at ha' hb'
  rw [ha', hb']

section

variable {attempts : Nat} {q : List Notice} {w : Option HelloFields}

/-- An attempt that may be in progress need not be. -/
theorem QueueSound.mono (h : QueueSound attempts q w) {more : Nat} (le : attempts ≤ more) : QueueSound more q w :=
  ⟨h.length, h.hellos, h.ordered, h.attempted.trans le, h.waits⟩

/-- No notice and no pending HELLO. -/
theorem QueueSound.empty (attempts : Nat) : QueueSound attempts [] none :=
  ⟨Nat.zero_le _, Nat.zero_le _, .nil, Nat.zero_le _, nofun⟩

/-- With no HELLO pending, notices may leave the queue. -/
theorem QueueSound.sublist (h : QueueSound attempts q w) {q' : List Notice} (sub : q'.Sublist q) : QueueSound attempts q' none :=
  ⟨sub.length_le.trans h.length, sub.countP_le.trans h.hellos, h.ordered.sublist sub, sub.countP_le.trans h.attempted, nofun⟩

/-- A notice that is not attempted joins a queue with room: a HELLO where there is none, queued or pending (R140). -/
theorem QueueSound.join (h : QueueSound attempts q w) {n : Notice} (idle : n.attempted = false) (room : q.length < 16)
    (alone : n.isHello = true → w = none ∧ ∀ m ∈ q, m.isHello = false) : QueueSound attempts (joinQueue n q) w := by
  have perm : (joinQueue n q).Perm (n :: q) := insertBehind_perm ..
  refine ⟨by simpa using room, ?_, ?_, ?_, fun waits => .inl ?_⟩
  · rw [perm.countP_eq]
    cases hello : n.isHello with
    | false => simpa [hello] using h.hellos
    | true =>
      have none : q.countP (fun n => n.isHello) = 0 :=
        List.countP_eq_zero.mpr fun m hm => by simp [(alone hello).2 m hm]
      simp [hello, none]
  · exact pairwise_insertBehind (R := fun a b : Notice => a.arb ≤ b.arb) _ _ (fun _ _ _ => Nat.le_trans)
      (fun y later => (of_decide_eq_true later).le)
      (fun y later => Nat.le_of_not_lt (of_decide_eq_false later)) h.ordered
  · rw [perm.countP_eq]
    simpa [idle] using h.attempted
  · rcases h.waits waits with attempt | ⟨full, -⟩
    · simp only [List.any_eq_true] at attempt ⊢
      obtain ⟨m, hm, both⟩ := attempt
      exact ⟨m, perm.mem_iff.mpr (List.mem_cons_of_mem _ hm), both⟩
    · omega

/-- Notices change their content, each keeping its ARB and its kind as a HELLO or not. -/
theorem QueueSound.map (h : QueueSound attempts q w) {f : Notice → Notice} (arb : ∀ n, (f n).arb = n.arb)
    (hello : ∀ n ∈ q, (f n).isHello = n.isHello) {attempts' : Nat} (attempted : (q.map f).countP (fun n => n.attempted) ≤ attempts')
    {w' : Option HelloFields} (waits : w'.isSome → ((q.map f).any fun n => n.isHello && n.attempted) ∨
      (16 ≤ q.length ∧ q.all fun n => !n.isHello)) : QueueSound attempts' (q.map f) w' := by
  have kinds : (q.all fun n => !n.isHello) = true → ((q.map f).all fun n => !n.isHello) = true := by
    simp only [List.all_eq_true, List.forall_mem_map]
    exact fun no n hn => (hello n hn).symm ▸ no n hn
  refine ⟨by simpa using h.length, ?_, ?_, attempted, fun waiting => (waits waiting).imp id fun ⟨full, no⟩ =>
    ⟨by simpa using full, kinds no⟩⟩
  · rw [List.countP_map, List.countP_congr (p := (fun n => n.isHello) ∘ f) (q := fun n => n.isHello)]
    · exact h.hellos
    · intro n hn
      simp [hello n hn]
  · rw [List.pairwise_map]
    exact h.ordered.imp fun le => by simpa [arb] using le

/-- A HELLO that finds a queued HELLO not being attempted replaces its content (R141). -/
theorem QueueSound.replaceHello (h : QueueSound attempts q none) (f : HelloFields) :
    QueueSound attempts (q.map fun n => if n.isHello then { n with body := .hello f } else n) none := by
  refine h.map (fun n => by split <;> rfl) (fun n _ => ?_) ?_ nofun
  · split
    · rename_i hello
      exact hello.symm
    · rfl
  · rw [List.countP_map]
    refine (le_of_eq (List.countP_congr fun n _ => ?_)).trans h.attempted
    simp only [Function.comp_apply]
    split <;> rfl

/-- A HELLO waits beside an attempted HELLO, or a full queue without one (R141). -/
theorem QueueSound.wait (h : QueueSound attempts q w) (f : HelloFields)
    (must : (q.any fun n => n.isHello && n.attempted) ∨ (16 ≤ q.length ∧ q.all fun n => !n.isHello)) :
    QueueSound attempts q (some f) := ⟨h.length, h.hellos, h.ordered, h.attempted, fun _ => must⟩

end

/-! ### The queue's operations -/

/-- The HELLO of a station is a HELLO that is not attempted. -/
@[simp] theorem isHello_helloNotice (number : Fin 16) (f : HelloFields) : (helloNotice number f).isHello = true := rfl

/-- Offering a HELLO keeps the queue sound (R141). -/
theorem State.offerHello_sound {s : State} {attempts : Nat} (h : QueueSound attempts s.link.queue s.link.waiting) (f : HelloFields) :
    QueueSound attempts (s.offerHello f).link.queue (s.offerHello f).link.waiting := by
  unfold State.offerHello State.waitHello
  dsimp only
  cases waiting : s.link.waiting with
  | some old => exact h.wait f (h.waits (by rw [waiting]; rfl))
  | none =>
    rw [waiting] at h
    simp only [Option.isSome_none, Bool.false_eq_true, if_false]
    cases found : s.link.queue.find? Notice.isHello with
    | some m =>
      have member := List.mem_of_find?_eq_some found
      have hello : m.isHello = true := List.find?_some found
      dsimp only
      split
      · rename_i attempt
        exact h.wait f (.inl (List.any_eq_true.mpr ⟨m, member, by simp [hello, attempt]⟩))
      · exact h.replaceHello f
    | none =>
      have no : ∀ m ∈ s.link.queue, m.isHello = false := fun m hm =>
        Bool.eq_false_of_not_eq_true (List.find?_eq_none.mp found m hm)
      dsimp only
      split
      · rename_i room
        exact h.join rfl room fun _ => ⟨rfl, no⟩
      · rename_i full
        split
        · rename_i q' escape
          obtain ⟨sub, length⟩ := lastIdleEscape_sublist escape
          have := h.length
          exact (h.sublist sub).join rfl (by omega) fun _ => ⟨rfl, fun m hm => no m (sub.subset hm)⟩
        · exact h.wait f (.inr ⟨by omega, by simpa using no⟩)

/-- Offering a PIECE or an ESCAPE keeps the queue sound (R141). -/
theorem State.offerNotice_sound {s : State} {attempts : Nat} (h : QueueSound attempts s.link.queue s.link.waiting) (arb : Nat) {b : Body}
    (other : Notice.isHello ⟨arb, b, false⟩ = false) :
    QueueSound attempts (s.offerNotice arb b).link.queue (s.offerNotice arb b).link.waiting := by
  unfold State.offerNotice
  split
  · rename_i room
    exact h.join rfl room fun hello => by rw [other] at hello; cases hello
  · exact h

/-- A pending HELLO beside a queue without one takes a freed place (R141). -/
theorem Link.fillFreed_sound {k : Link} {attempts : Nat} (h : QueueSound attempts k.queue none)
    (free : k.waiting.isSome → ∀ n ∈ k.queue, n.isHello = false) (number : Fin 16) :
    QueueSound attempts (k.fillFreed number).queue (k.fillFreed number).waiting := by
  unfold Link.fillFreed
  cases waiting : k.waiting with
  | none => dsimp only; rw [waiting]; exact h
  | some f =>
    have no := free (by rw [waiting]; rfl)
    dsimp only
    split
    · rename_i room
      exact h.join rfl room fun _ => ⟨rfl, no⟩
    · rw [waiting]
      exact h.wait f (.inr ⟨by omega, by simpa using no⟩)

/-- The notice of the attempt leaves the queue: none is attempted then (R138, R141). -/
theorem Link.dropAttempted_sound {k : Link} {attempts : Nat} (h : QueueSound attempts k.queue k.waiting) (number : Fin 16) :
    QueueSound 0 (Link.dropAttempted number k).queue (Link.dropAttempted number k).waiting := by
  have left : QueueSound attempts (k.queue.filter fun n => !n.attempted) none := h.sublist List.filter_sublist
  refine Link.fillFreed_sound (k := { k with queue := k.queue.filter fun n => !n.attempted })
    ⟨left.length, left.hellos, left.ordered, ?_, nofun⟩ (fun waiting n hn => ?_) number
  · exact le_of_eq (List.countP_eq_zero.mpr fun n hn => by simpa using (List.mem_filter.mp hn).2)
  · obtain ⟨member, idle⟩ := List.mem_filter.mp hn
    rcases h.waits waiting with attempt | ⟨-, no⟩
    · obtain ⟨m, hm, both⟩ := List.any_eq_true.mp attempt
      obtain ⟨hello, attempted⟩ := (Bool.and_eq_true _ _).mp both
      by_contra isHello
      have one := eq_of_countP_le_one h.hellos member (Bool.eq_true_of_not_eq_false isHello) hm hello
      subst one
      simp [attempted] at idle
    · simpa using List.all_eq_true.mp no n member

/-- The attempt ends with its notice kept: none is attempted then (R138, R141). -/
theorem Link.keepAttempted_sound {k : Link} {attempts : Nat} (few : attempts ≤ 1) (h : QueueSound attempts k.queue k.waiting) :
    QueueSound 0 k.keepAttempted.queue k.keepAttempted.waiting := by
  unfold Link.keepAttempted
  split
  · rename_i attempt
    obtain ⟨m, hm, both⟩ := List.any_eq_true.mp attempt
    obtain ⟨attempted, hello⟩ := (Bool.and_eq_true _ _).mp both
    refine h.map (fun n => by split <;> rfl) (fun n hn => ?_) (le_of_eq (List.countP_eq_zero.mpr ?_)) nofun
    · split
      · rename_i attempted'
        have one := eq_of_countP_le_one (h.attempted.trans few) hn attempted' hm attempted
        subst one
        cases waiting : k.waiting with
        | none => rfl
        | some f => exact hello.symm
      · rfl
    · intro n hn
      obtain ⟨x, -, rfl⟩ := List.mem_map.mp hn
      split <;> simp_all
  · rename_i no
    have idle : ((k.queue.map fun n => { n with attempted := false }).countP fun n => n.attempted) ≤ 0 :=
      le_of_eq (List.countP_eq_zero.mpr fun n hn => by obtain ⟨x, -, rfl⟩ := List.mem_map.mp hn; simp)
    refine h.map (f := fun n => { n with attempted := false }) (fun n => rfl) (fun n hn => rfl) idle fun waiting => .inr ?_
    rcases h.waits waiting with attempt | full
    · exact absurd (by simpa [Bool.and_comm] using attempt) no
    · exact full

/-- The stale checks keep a queue sound of which no notice is attempted (R150). -/
theorem State.staleChecks_sound {s : State} (h : QueueSound 0 s.link.queue s.link.waiting) :
    QueueSound 0 s.staleChecks.link.queue s.staleChecks.link.waiting := by
  unfold State.staleChecks
  dsimp only
  split
  · obtain ⟨v, counted⟩ := State.bumps_eq .txStale (s.link.queue.takeWhile s.dropsAsStale).length s
    rw [counted]
    exact h
  · have sub : (s.link.queue.dropWhile s.dropsAsStale).Sublist s.link.queue := List.dropWhile_sublist _
    refine Link.fillFreed_sound (k := { s.link with queue := s.link.queue.dropWhile s.dropsAsStale }) (h.sublist sub)
      (fun waiting n hn => ?_) _
    rcases h.waits waiting with attempt | ⟨-, no⟩
    · obtain ⟨m, hm, both⟩ := List.any_eq_true.mp attempt
      have idle := List.countP_eq_zero.mp (Nat.le_zero.mp h.attempted) m hm
      simp_all
    · simpa using List.all_eq_true.mp no n (sub.subset hn)

/-! ### The link's commands -/

section

variable {k : Link}

/-- The queue's promise carries over when queue and pending HELLO stay and an attempt, once made, goes on. -/
theorem Link.TransmitQueueSound.of_same (h : k.TransmitQueueSound) {k' : Link} (queue : k'.queue = k.queue)
    (waiting : k'.waiting = k.waiting) (state : k.state.attempting = true → k'.state.attempting = true) : k'.TransmitQueueSound := by
  rw [Link.transmitQueueSound_iff] at h ⊢
  rw [queue, waiting]
  refine h.mono ?_
  cases attempting : k.state.attempting with
  | false => exact Nat.zero_le _
  | true => rw [state attempting]

/-- A queue of which no notice is attempted is sound in every state of the link. -/
theorem Link.sound_of_zero (h : QueueSound 0 k.queue k.waiting) : k.TransmitQueueSound :=
  k.transmitQueueSound_iff.mpr (h.mono (Nat.zero_le _))

/-- No notice is attempted but during an attempt. -/
theorem Link.TransmitQueueSound.zero (h : k.TransmitQueueSound) (state : k.state.attempting = false) :
    QueueSound 0 k.queue k.waiting := by
  have sound := k.transmitQueueSound_iff.mp h
  rw [state] at sound
  exact sound

/-- No notice is attempted once the notice of the attempt has left the queue. -/
theorem Link.TransmitQueueSound.drop (h : k.TransmitQueueSound) (number : Fin 16) :
    QueueSound 0 (Link.dropAttempted number k).queue (Link.dropAttempted number k).waiting :=
  Link.dropAttempted_sound (k.transmitQueueSound_iff.mp h) number

/-- No notice is attempted once the attempt has ended with its notice kept. -/
theorem Link.TransmitQueueSound.keep (h : k.TransmitQueueSound) : QueueSound 0 k.keepAttempted.queue k.keepAttempted.waiting :=
  Link.keepAttempted_sound (by cases k.state <;> decide) (k.transmitQueueSound_iff.mp h)

/-- A won attempt goes on (R133). -/
theorem Link.TransmitQueueSound.win (h : k.TransmitQueueSound) : k.win.TransmitQueueSound := by
  rcases k.win_eq with ⟨-, eq⟩ | ⟨-, eq⟩ <;> rw [eq]
  · exact h.of_same rfl rfl fun _ => rfl
  · exact h

/-- The link's own commands keep the transmit queue sound (R131, R133, R137, R138, R139). -/
theorem Link.TransmitQueueSound.commands (h : k.TransmitQueueSound) :
    (∀ samples, (k.startEdge samples).TransmitQueueSound) ∧ (∀ n, (k.lose n).TransmitQueueSound) ∧
      (∀ s count, (k.latchCount s count).TransmitQueueSound) ∧ (∀ rate, (Link.breakEnd rate k).TransmitQueueSound) ∧
      (∀ number, (Link.complete number k).TransmitQueueSound) ∧ k.lineClear.TransmitQueueSound := by
  refine ⟨fun samples => ?_, fun n => ?_, fun s count => ?_, fun rate => ?_, fun number => ?_, ?_⟩
  · obtain ⟨v, i, d, read⟩ := k.readSamples_eq samples
    unfold Link.startEdge
    rw [read]
    split
    · rename_i idle
      dsimp only
      split
      · exact h.of_same rfl rfl fun attempting => by simp [idle.1, LinkState.attempting] at attempting
      · exact h.of_same rfl rfl id
    · exact h
  · unfold Link.lose
    split
    · exact Link.sound_of_zero h.keep
    · exact h
  · unfold Link.latchCount
    split
    · exact h.win.of_same rfl rfl id
    · exact h.win.of_same rfl rfl id
    · exact h.of_same rfl rfl id
    · exact h
  · unfold Link.breakEnd
    split
    · rename_i breaking _
      split
      · exact h.of_same rfl rfl fun attempting => by simp [breaking, LinkState.attempting] at attempting
      · exact h
    · exact h
  · unfold Link.complete
    split
    · exact Link.sound_of_zero (h.drop number)
    · exact h
  · unfold Link.lineClear
    split
    · rename_i fault
      exact h.of_same rfl rfl fun attempting => by simp [fault.1, LinkState.attempting] at attempting
    · exact h

/-- Time keeps the transmit queue sound (R133). -/
theorem Link.TransmitQueueSound.pass (h : k.TransmitQueueSound) (rate : Nat) (v : Level) (n : Nat) :
    (k.pass rate v n).TransmitQueueSound := by
  obtain ⟨i, d, st, a, eq, state⟩ := k.pass_eq rate v n
  rw [eq]
  refine h.of_same rfl rfl fun attempting => ?_
  rcases state with ⟨same, -⟩ | ⟨-, sending, -⟩
  · exact same ▸ attempting
  · exact sending ▸ rfl

end

/-! ### Requests, attempts and the track table -/

section

variable {s : State}

/-- Requesting a HELLO keeps the transmit queue sound (R165). -/
theorem State.requestHello_sound (h : s.link.TransmitQueueSound) : s.requestHello.link.TransmitQueueSound := by
  have state : ∀ f, (s.offerHello f).link.state = s.link.state := fun f => by
    unfold State.offerHello State.waitHello
    dsimp only
    repeat' split
    all_goals rfl
  unfold State.requestHello
  split
  · rw [Link.transmitQueueSound_iff, state]
    exact State.offerHello_sound (s.link.transmitQueueSound_iff.mp h) _
  · exact h

/-- Offering a PIECE or an ESCAPE keeps the transmit queue sound (R141). -/
theorem State.offerNotice_keepsSound (h : s.link.TransmitQueueSound) (arb : Nat) {b : Body}
    (other : Notice.isHello ⟨arb, b, false⟩ = false) : (s.offerNotice arb b).link.TransmitQueueSound := by
  have state : (s.offerNotice arb b).link.state = s.link.state := by unfold State.offerNotice; split <;> rfl
  rw [Link.transmitQueueSound_iff, state]
  exact State.offerNotice_sound (s.link.transmitQueueSound_iff.mp h) arb other

/-- An attempt keeps the transmit queue sound: its notice is the one that is attempted (R132). -/
theorem State.attempt_sound (h : s.link.TransmitQueueSound) : s.attempt.link.TransmitQueueSound := by
  unfold State.attempt
  split
  · rename_i may
    have idle : s.link.state = .idle := by
      simp only [State.mayAttempt, Bool.and_eq_true, decide_eq_true_eq] at may
      exact may.1.1.1
    have checked := State.staleChecks_sound (h.zero (by rw [idle]; rfl))
    unfold State.beginAttempt
    dsimp only
    split
    · exact Link.sound_of_zero checked
    · rename_i n rest queue
      rw [queue] at checked
      rw [Link.transmitQueueSound_iff]
      obtain ⟨length, hellos, ordered, attempted, waits⟩ := checked
      have none : ∀ m ∈ n :: rest, m.attempted = false := fun m hm =>
        Bool.eq_false_of_not_eq_true (List.countP_eq_zero.mp (Nat.le_zero.mp attempted) m hm)
      refine ⟨length, ?_, ?_, ?_, fun waiting => .inr ?_⟩
      · simpa [List.countP_cons, Notice.isHello] using hellos
      · exact List.pairwise_cons.mpr (List.pairwise_cons.mp ordered)
      · have later : rest.countP (fun n => n.attempted) = 0 :=
          List.countP_eq_zero.mpr fun m hm => by simp [none m (List.mem_cons_of_mem _ hm)]
        simp [later, LinkState.attempting, bit]
      · rcases waits waiting with attempt | full
        · obtain ⟨m, hm, both⟩ := List.any_eq_true.mp attempt
          simp [none m hm] at both
        · exact full
  · exact h

/-- A settlement keeps the transmit queue sound (R66). -/
theorem State.settlePiece_sound (h : s.link.TransmitQueueSound) (cause : Option DenialCause) (n : PieceNotice) :
    (s.settlePiece cause n).link.TransmitQueueSound := by
  have counted : (s.countVerdict n.verdict cause n.cls).link = s.link := by
    rcases s.countVerdict_cases n.verdict cause n.cls with ⟨k, _, _, eq⟩ | ⟨_, eq⟩ <;> rw [eq] <;> rfl
  unfold State.settlePiece State.requestPiece
  split
  · exact State.offerNotice_keepsSound (counted ▸ h) _ rfl
  · exact counted ▸ h

/-- A decision keeps the transmit queue sound (R61). -/
theorem State.decideEntry_sound (h : s.link.TransmitQueueSound) (rd : Reading) (i : Fin 128) (e : Entry) :
    (s.decideEntry rd i e).link.TransmitQueueSound := by
  rcases s.decideEntry_cases rd i e with ⟨v, cause, d, -, eq⟩ | ⟨d, -, eq⟩ | ⟨d, w, -, eq⟩ <;> rw [eq]
  · exact State.settlePiece_sound h ..
  · exact h
  · exact h

/-- Requesting an ESCAPE keeps the transmit queue sound (R68). -/
theorem State.requestEscape_sound (h : s.link.TransmitQueueSound) (e : EscapeNotice) :
    (s.requestEscape e).link.TransmitQueueSound := by
  unfold State.requestEscape
  split
  · exact State.offerNotice_keepsSound h _ rfl
  · exact h

/-- Serving a local piece keeps the transmit queue sound (R54 to R56). -/
theorem State.serveLocal_sound (h : s.link.TransmitQueueSound) (rd : Reading) (p : PieceRecord) :
    (s.serveLocal rd p).link.TransmitQueueSound := by
  unfold State.serveLocal
  split
  · dsimp only
    split
    · exact State.decideEntry_sound h ..
    · exact h
  · split
    · exact State.settlePiece_sound (s := s.bump .tableFull) h ..
    · split
      · split
        · refine State.decideEntry_sound (State.requestEscape_sound (s := s.dropEscape _) h _) ..
        · exact State.decideEntry_sound h ..
      · exact State.decideEntry_sound h ..

/-- Serving a receive record keeps the transmit queue sound (R57 to R60). -/
theorem State.serveReceived_sound (h : s.link.TransmitQueueSound) (rd : Reading) (r : ReceiveRecord) :
    (s.serveReceived rd r).link.TransmitQueueSound := by
  have watched : ∀ x : EscapeRecord, (if s.opts.scan = true then s.watch x else s).link.TransmitQueueSound := by
    intro x
    have kept : (s.watch x).link = s.link := by
      unfold State.watch
      split
      · rfl
      · split
        · split <;> rfl
        · rfl
    split
    · exact kept ▸ h
    · exact h
  have joined : ∀ (i : Fin 128) (p : PeerReport), (s.joinEntry i p).link.TransmitQueueSound := by
    intro i p
    unfold State.joinEntry
    split
    · dsimp only
      split <;> exact h
    · exact h
  have expected : ∀ (p : PeerReport) (half : Nat), (s.expect rd p half).link.TransmitQueueSound := by
    intro p half
    unfold State.expect
    split
    · exact h
    · split
      · exact h
      · dsimp only
        split
        · exact State.decideEntry_sound (s := s.drawTag) h ..
        · exact h
  have reported : ∀ (p : PeerReport) (half : Nat), State.link
      (match chooseMatch (s.reportMatches p half) with
        | some m => s.joinEntry (Fin.ofNat 128 m.place) p
        | none => s.expect rd p half) |>.TransmitQueueSound := by
    intro p half
    split
    · exact joined ..
    · exact expected ..
  unfold State.serveReceived
  dsimp only
  split
  · exact h
  · split
    · exact watched _
    · exact watched _
    · exact watched _
    · exact reported ..
    · exact reported ..
    · exact reported ..
    · exact reported ..

/-- Serving the deadline request keeps the transmit queue sound (R62 to R65). -/
theorem State.serveDeadline_sound (h : s.link.TransmitQueueSound) (rd : Reading) :
    (s.serveDeadline rd).link.TransmitQueueSound := by
  unfold State.serveDeadline
  split
  · exact h
  · split
    · split
      · unfold State.serveExpected
        split
        · exact h
        · exact State.decideEntry_sound h ..
      · unfold State.servePassing
        split <;> exact State.settlePiece_sound h ..
    · exact h
  · exact h

/-- A request taken and served keeps the transmit queue sound (R51, R66, R68). -/
theorem State.request_sound (h : s.link.TransmitQueueSound) (c : Claimant) (test : TableRequest → Bool) :
    (s.request c test).link.TransmitQueueSound := by
  rcases s.request_cases c test with ⟨-, eq⟩ | ⟨f, t, taken, eq⟩ <;> rw [eq]
  · exact h
  · have sound : t.link.TransmitQueueSound := (State.takeRequest_keepsBut taken).same .link (by simp) ▸ h
    generalize f.reading.getD t.reading = rd
    cases f.request with
    | report r =>
      cases r with
      | opened i granted flags =>
        simp only [State.serve, State.serveReport]
        split <;> exact sound
      | settled i v cause flags =>
        simp only [State.serve, State.serveReport]
        split
        · exact State.settlePiece_sound sound ..
        · exact sound
    | localPiece p => exact State.serveLocal_sound sound rd p
    | received r => exact State.serveReceived_sound sound rd r
    | deadline => exact State.serveDeadline_sound sound rd

/-- A valid frame keeps the transmit queue sound: the link was receiving (R136, R164). -/
theorem State.validFrame_sound (h : s.link.TransmitQueueSound) (rx : List LineByte) :
    (s.validFrame rx).link.TransmitQueueSound := by
  unfold State.validFrame
  split
  · rename_i latch arb kl payload receiving _ _
    have ended : s.endReception.link.TransmitQueueSound :=
      h.of_same rfl rfl fun attempting => by simp [receiving, LinkState.attempting] at attempting
    have dispatched : (s.endReception.dispatch (arbStation arb) (kindOf kl) payload latch).link = s.endReception.link :=
      (State.dispatch_keepsBut ..).same .link (by simp)
    unfold State.takeFrame
    dsimp only
    split
    · unfold State.takeOwnNumber
      split
      · exact ended
      · exact Link.sound_of_zero (.empty 0)
    · exact dispatched ▸ ended
  · exact h

end

/-! ### The commands and the hand-on -/

/-- Every command of the running part keeps the transmit queue sound. -/
theorem State.act_queueSound {c : Instr} (other : c.actsInReset = false) {e : State} (h : e.link.TransmitQueueSound) :
    (e.act c).link.TransmitQueueSound := by
  have frame := State.act_keepsBut other e
  have untouched : Part.link ∉ c.parts → (e.act c).link.TransmitQueueSound := fun no => frame.same .link no ▸ h
  obtain ⟨startEdge, lose, latchCount, breakEnd, complete, lineClear⟩ := Link.TransmitQueueSound.commands h
  cases c with
  | opened | settled | localPiece | receiveRecord | deadlineRequest => exact State.request_sound h _ _
  | busFree => exact State.attempt_sound h
  | startEdge l samples => exact startEdge samples
  | arbitrationLost l k => exact lose k
  | latchCount l => exact latchCount _ _
  | breakEnd l => exact breakEnd _
  | transmitCompletion l => exact complete _
  | lineFaultEnd l => exact lineClear
  | bitError l bit =>
    simp only [State.act, State.bitError]
    split
    · exact Link.sound_of_zero (h.drop _)
    · exact h
  | lineFault l =>
    simp only [State.act, State.lineStuck]
    split
    · exact Link.sound_of_zero h.keep
    · exact h
  | frameDiscard l rx =>
    simp only [State.act, State.discardFrame]
    split
    · rename_i receiving
      split
      · exact h.of_same rfl rfl fun attempting => by simp [receiving, LinkState.attempting] at attempting
      · exact h
      · exact h
    · exact h
  | helloTimerExpiry l =>
    simp only [State.act, State.helloExpiry]
    split
    · split
      · exact State.requestHello_sound h
      · exact h
    · exact h
  | validFrame l rx => exact State.validFrame_sound h rx
  | powerOn | coreSupplyDrop | resetPin | optionWriteCompleted | supplyRise | resetPinHigh | resetEnd => cases other
  | _ => exact untouched (by simp [Instr.parts])

/-- The hand-on keeps the transmit queue sound (R132, R165). -/
theorem handOn_queueSound {b a : State} (h : a.link.TransmitQueueSound) : (handOn b a).link.TransmitQueueSound := by
  have blocked : (attend b (blockIfBegun b a)).link.TransmitQueueSound := by
    have kept : (blockIfBegun b a).link = a.link := by
      unfold blockIfBegun
      split
      · exact a.beginBlocking_work.keepsBut.same .link (by simp)
      · rfl
    exact kept ▸ h
  have announced : (announce b (attend b (blockIfBegun b a))).link.TransmitQueueSound := by
    unfold announce
    split
    · exact State.requestHello_sound blocked
    · exact blocked
  obtain ⟨c, marked⟩ := markTied_eq b (attemptIfReady b (announce b (attend b (blockIfBegun b a))))
  unfold handOn
  dsimp only
  rw [marked]
  unfold attemptIfReady
  split
  · exact announced
  · exact State.attempt_sound announced

/-- Settles O55: by what each operation does to a sound queue; only an attempt has an attempted notice. -/
theorem transmitQueueStaysSound : Obligations.TransmitQueueStaysSound := by
  unfold Obligations.TransmitQueueStaysSound
  intro s t holds next
  refine step_keeps (P := fun s => s.link.TransmitQueueSound) (fun _ _ h => h) (fun s v n h => ?time)
    (fun c e _ other h => handOn_queueSound (State.act_queueSound other h)) ?logic (fun e _ => Link.sound_of_zero (.empty 0))
    holds next
  case time =>
    unfold State.pass
    split
    · exact h
    · split
      · exact h.of_same rfl rfl id
      · exact h.pass ..
  case logic =>
    intro c e acts h
    cases c with
    | powerOn | coreSupplyDrop | resetPin => exact Link.sound_of_zero (.empty 0)
    | supplyRise | resetPinHigh => exact h
    | optionWriteCompleted =>
      simp only [State.act, State.writeCompleted]
      split
      · exact Link.sound_of_zero (.empty 0)
      · exact h
    | resetEnd l pins =>
      rcases e.endReset_cases pins with ⟨-, ends⟩ | ⟨-, ends⟩ <;> rw [State.act, ends]
      · exact Link.sound_of_zero (.empty 0)
      · exact h
    | _ => cases acts

/-- Settles O60: no lane is OPEN, every queue is empty, the roster is UNKNOWN but for SELF, and no source acts. -/
theorem promisesHoldAtReset : Obligations.PromisesHoldAtReset := by
  unfold Obligations.PromisesHoldAtReset
  refine ⟨State.withinBudget_of_afterReset rfl, Link.sound_of_zero (.empty 0),
    State.rosterSound_of_afterReset (number := 0) (first := .setup) rfl,
    State.gateSound_of_afterReset rfl (swRest := true) (swDiv := true) rfl,
    (State.queuesBounded_iff _).mpr (State.bounded_of_empty rfl rfl rfl rfl rfl rfl rfl rfl), ?_⟩
  decide

end Sys2Proof.Machine
end

section
/-! PROOFS. What the passing of time leaves in each part, run by run and over a whole lapse. -/

namespace Sys2Proof.Machine

/-! ### One time after another -/

/-- The µs of a lapse, run by run. -/
@[simp] theorem lapseUs_cons (r : Run) (l : Lapse) : lapseUs (r :: l) = r.us + lapseUs l := by simp [lapseUs]

/-- A timer that runs on twice. -/
theorem map_add_add (t : Option Nat) (m n : Nat) : (t.map (· + m)).map (· + n) = t.map (· + (m + n)) := by
  cases t <;> simp [Nat.add_assoc]

/-- The silence timer runs on (R4). -/
theorem Belt.pass_pass (b : Belt) (m n : Nat) : (b.pass m).pass n = b.pass (m + n) := by
  simp only [Belt.pass, map_add_add]

/-- The converter pair and the schedule run on (R16, R25). -/
theorem Scan.pass_pass (c : Scan) (m n : Nat) : (c.pass m).pass n = c.pass (m + n) := by
  simp only [Scan.pass, Nat.add_assoc]
  split <;> simp_all [Nat.add_assoc]

/-- The test lanes run on (R107). -/
theorem Outlets.pass_pass (o : Outlets) (m n : Nat) : (o.pass m).pass n = o.pass (m + n) := by
  simp only [Outlets.pass, Lane.pass, Outlets.mk.injEq, true_and]
  ext1 i hi
  simp only [Vector.getElem_ofFn, map_add_add, Fin.getElem_fin]

/-- The travel timer runs on (R116). -/
theorem Gate.pass_pass (g : Gate) (m n : Nat) : (g.pass m).pass n = g.pass (m + n) := by
  simp only [Gate.pass, map_add_add]

/-- A silence timer runs on to its stop (R168). -/
theorem RosterSlot.pass_pass (r : RosterSlot) (m n : Nat) : (r.pass m).pass n = r.pass (m + n) := by
  unfold RosterSlot.pass
  cases r.silence with
  | none => rfl
  | some t => simp only [Option.map_some, RosterSlot.mk.injEq, Option.some.injEq, true_and]; omega

/-- The station's timers run on (R161, R165, R168). -/
theorem Station.pass_pass (t : Station) (m n : Nat) : (t.pass m).pass n = t.pass (m + n) := by
  simp only [Station.pass, map_add_add, Station.mk.injEq, true_and, and_true]
  ext1 i hi
  simp only [Vector.getElem_ofFn, Fin.getElem_fin, RosterSlot.pass_pass]

/-! ### The line over a lapse -/

/-- A lapse passes at a link. -/
def Link.elapse (rate : Nat) (k : Link) (l : Lapse) : Link :=
  l.foldl (fun k r => if r.us = 0 then k else k.pass rate r.level r.us) k

/-- A lapse at a link, run by run. -/
theorem Link.elapse_cons (rate : Nat) (k : Link) (r : Run) (l : Lapse) :
    k.elapse rate (r :: l) = (if r.us = 0 then k else k.pass rate r.level r.us).elapse rate l := rfl

/-- The runs of a lapse that take time. -/
def timedRuns (l : Lapse) : Lapse := l.filter fun r => decide (r.us ≠ 0)

/-- The samples of a lapse. -/
def lapseSamples (rate : Nat) (l : Lapse) : List Level :=
  (timedRuns l).flatMap fun r => List.replicate (samplesPerUs rate * r.us) r.level

/-- A count after samples: the number of samples of its level in a row (R131, R139). -/
def countAfter (v : Level) (samples : List Level) (old : Nat) : Nat :=
  if samples.all fun x => decide (x = v) then old + samples.length else (samples.reverse.takeWhile fun x => decide (x = v)).length

/-- The counts after samples read one by one (R131, R139). -/
theorem Link.counts_foldl (k : Link) (vs : List Level) :
    (vs.foldl (fun k v => k.count v 1) k).idle = countAfter .recessive vs k.idle ∧
      (vs.foldl (fun k v => k.count v 1) k).dominant = countAfter .dominant vs k.dominant := by
  rw [k.foldl_count]
  exact ⟨rfl, rfl⟩

/-- The counts that a run leaves are those of its samples but for the ones read ahead (R131, R139, log 22). -/
theorem Link.counts_pass (rate : Nat) (v : Level) (n : Nat) (k : Link) :
    (k.pass rate v n).idle = (k.count v (n * samplesPerUs rate - k.ahead)).idle ∧
      (k.pass rate v n).dominant = (k.count v (n * samplesPerUs rate - k.ahead)).dominant := by
  unfold Link.pass Link.win
  dsimp only
  split
  · split <;> exact ⟨rfl, rfl⟩
  · exact ⟨rfl, rfl⟩

/-- The samples read ahead of a run are the first of its own, then of those behind it (log 22). -/
theorem drop_replicate_append {α : Type} (v : α) (n a : Nat) (rest : List α) :
    (List.replicate n v ++ rest).drop a = List.replicate (n - a) v ++ rest.drop (a - n) := by
  simp [List.drop_append]

/-- The counts after a lapse (R131, R139, log 22). -/
theorem Link.elapse_counts (rate : Nat) : ∀ (l : Lapse) (k : Link),
    (k.elapse rate l).idle = countAfter .recessive ((lapseSamples rate l).drop k.ahead) k.idle ∧
      (k.elapse rate l).dominant = countAfter .dominant ((lapseSamples rate l).drop k.ahead) k.dominant
  | [], k => by simp [Link.elapse, lapseSamples, timedRuns, countAfter]
  | r :: l, k => by
    rw [Link.elapse_cons]
    by_cases none : r.us = 0
    · have same : lapseSamples rate (r :: l) = lapseSamples rate l := by simp [lapseSamples, timedRuns, none]
      rw [if_pos none, same]
      exact Link.elapse_counts rate l k
    · have more : lapseSamples rate (r :: l) =
          List.replicate (r.us * samplesPerUs rate) r.level ++ lapseSamples rate l := by
        simp [lapseSamples, timedRuns, none, Nat.mul_comm]
      rw [if_neg none, more, drop_replicate_append]
      obtain ⟨idle, dominant⟩ := Link.elapse_counts rate l (k.pass rate r.level r.us)
      obtain ⟨_, _, _, _, pass, _⟩ := Link.pass_eq rate r.level r.us k
      have ahead : (k.pass rate r.level r.us).ahead = k.ahead - r.us * samplesPerUs rate := by rw [pass]
      obtain ⟨passIdle, passDominant⟩ := Link.counts_pass rate r.level r.us k
      rw [idle, dominant, ahead, passIdle, passDominant]
      obtain ⟨idle', dominant'⟩ := k.counts_foldl
        (List.replicate (r.us * samplesPerUs rate - k.ahead) r.level ++ (lapseSamples rate l).drop (k.ahead - r.us * samplesPerUs rate))
      rw [List.foldl_append, Link.foldl_count_replicate] at idle' dominant'
      exact ⟨(Link.counts_foldl _ _).1.symm.trans idle', (Link.counts_foldl _ _).2.symm.trans dominant'⟩

/-- The level, the samples read ahead and the running times after a lapse, and what it leaves (R137, log 22). -/
theorem Link.elapse_kept (rate : Nat) : ∀ (l : Lapse) (k : Link),
    (k.elapse rate l).rx = (((timedRuns l).getLast?.map Run.level).getD k.rx) ∧
      (k.elapse rate l).ahead = k.ahead - samplesPerUs rate * lapseUs l ∧
      (k.elapse rate l).breakTime = k.breakTime.map (· + lapseUs l) ∧
      (k.elapse rate l).queue = k.queue ∧ (k.elapse rate l).waiting = k.waiting ∧ (k.elapse rate l).frame = k.frame ∧
      (k.elapse rate l).arbRead = k.arbRead ∧ (k.elapse rate l).latch = k.latch
  | [], k => by simp [Link.elapse, timedRuns, lapseUs]
  | r :: l, k => by
    rw [Link.elapse_cons]
    by_cases none : r.us = 0
    · have same : timedRuns (r :: l) = timedRuns l := by simp [timedRuns, none]
      rw [if_pos none, same, lapseUs_cons, none, Nat.zero_add]
      exact Link.elapse_kept rate l k
    · have more : timedRuns (r :: l) = r :: timedRuns l := by simp [timedRuns, none]
      rw [if_neg none, more, lapseUs_cons]
      obtain ⟨i, d, st, a, pass, -⟩ := Link.pass_eq rate r.level r.us k
      have later := Link.elapse_kept rate l (k.pass rate r.level r.us)
      rw [pass] at later ⊢
      obtain ⟨rx, ahead, breakTime, queue, waiting, frame, arbRead, latch⟩ := later
      refine ⟨?_, ?_, by rw [breakTime]; exact map_add_add .., queue, waiting, frame, arbRead, latch⟩
      · rw [rx]
        cases timedRuns l <;> simp [List.getLast?_cons]
      · rw [ahead, Nat.sub_sub, Nat.mul_add, Nat.mul_comm r.us]

/-- An arbitration that the lapse ends (R133, log 8). -/
def Link.wins (rate : Nat) (k : Link) (us : Nat) : Bool :=
  decide (k.state = .arbitrating) && decide (0 < us) && k.arbTime.any fun t => decide (9 * bitUs rate ≤ t + us)

/-- What a run does to an arbitration (R133). -/
theorem Link.pass_arbitration (rate : Nat) (v : Level) {n : Nat} (timed : n ≠ 0) (k : Link) :
    (k.pass rate v n).state = (if k.wins rate n then .sending else k.state) ∧
      (k.pass rate v n).arbTime = (if k.wins rate n then none else k.arbTime.map (· + n)) := by
  obtain ⟨x, i, d, counted⟩ := k.count_eq v (n * samplesPerUs rate - k.ahead)
  unfold Link.pass Link.wins
  dsimp only
  rw [counted]
  by_cases ended : (k.arbTime.any fun t => decide (9 * bitUs rate ≤ t + n)) = true
  · have ended' : Link.arbitrationOver rate { k with
        rx := v, idle := i, dominant := d, ahead := k.ahead - n * samplesPerUs rate
        breakTime := k.breakTime.map (· + n), arbTime := k.arbTime.map (· + n) } = true := by
      rw [Link.arbitrationOver, Option.any_map]
      exact ended
    rw [if_pos ended', ended]
    unfold Link.win
    by_cases arbitrating : k.state = .arbitrating
    · simp [arbitrating, Nat.pos_of_ne_zero timed]
    · simp [arbitrating]
  · have ended' : ¬Link.arbitrationOver rate { k with
        rx := v, idle := i, dominant := d, ahead := k.ahead - n * samplesPerUs rate
        breakTime := k.breakTime.map (· + n), arbTime := k.arbTime.map (· + n) } = true := by
      rw [Link.arbitrationOver, Option.any_map]
      exact ended
    rw [if_neg ended', Bool.eq_false_of_not_eq_true ended]
    simp

/-- The arbitration after a lapse (R133, log 8). -/
theorem Link.elapse_arbitration (rate : Nat) : ∀ (l : Lapse) (k : Link),
    (k.elapse rate l).state = (if k.wins rate (lapseUs l) then .sending else k.state) ∧
      (k.elapse rate l).arbTime = (if k.wins rate (lapseUs l) then none else k.arbTime.map (· + lapseUs l))
  | [], k => by simp [Link.elapse, Link.wins, lapseUs]
  | r :: l, k => by
    rw [Link.elapse_cons, lapseUs_cons]
    by_cases none : r.us = 0
    · rw [if_pos none, none, Nat.zero_add]
      exact Link.elapse_arbitration rate l k
    · rw [if_neg none]
      obtain ⟨state, arbTime⟩ := Link.elapse_arbitration rate l (k.pass rate r.level r.us)
      obtain ⟨passState, passTime⟩ := Link.pass_arbitration rate r.level none k
      rw [state, arbTime]
      unfold Link.wins at state arbTime passState passTime ⊢
      rw [passState, passTime]
      by_cases arbitrating : k.state = .arbitrating
      · cases time : k.arbTime with
        | none => simp [arbitrating]
        | some t =>
          by_cases first : 9 * bitUs rate ≤ t + r.us
          · have both : 9 * bitUs rate ≤ t + (r.us + lapseUs l) := by omega
            have timed : 0 < r.us := by omega
            simp [arbitrating, first, both, timed]
          · have timed : 0 < r.us := by omega
            simp only [arbitrating, first, timed, Option.any_some, Option.map_some, Nat.add_assoc, decide_true, decide_false,
              Bool.and_false, Bool.true_and, Bool.false_eq_true, if_false, Nat.add_pos_left timed]
            by_cases second : 9 * bitUs rate ≤ t + (r.us + lapseUs l)
            · have : 0 < lapseUs l := by omega
              simp [second, this]
            · simp [second]
      · cases k.arbTime <;> simp [arbitrating, Nat.add_assoc]

/-! ### The state over a lapse -/

/-- What n µs of running time leave, with the link they leave. -/
def State.ran (s : State) (n : Nat) (k : Link) : State :=
  { s with
    timeBase := s.timeBase + BitVec.ofNat 32 n
    belt := s.belt.pass n
    scan := s.scan.pass n
    outlets := s.outlets.pass n
    gate := s.gate.pass n
    link := k
    station := s.station.pass n
    rst := { s.rst with sinceEnd := s.rst.sinceEnd + n } }

/-- One running time after another. -/
theorem State.ran_ran (s : State) (m n : Nat) (k k' : Link) : (s.ran m k).ran n k' = s.ran (m + n) k' := by
  simp only [State.ran, Belt.pass_pass, Scan.pass_pass, Outlets.pass_pass, Gate.pass_pass, Station.pass_pass, BitVec.add_assoc,
    Nat.add_assoc, ← BitVec.ofNat_add]

/-- A lapse of no time does nothing, and any other is the running of its µs, with the link that its runs leave (log 2). -/
theorem State.elapse_running : ∀ (l : Lapse) (s : State), s.rst.asserted = false →
    (lapseUs l = 0 → s.elapse l = s ∧ s.link.elapse s.opts.rate l = s.link) ∧
      (lapseUs l ≠ 0 → s.elapse l = s.ran (lapseUs l) (s.link.elapse s.opts.rate l))
  | [], s, _ => ⟨fun _ => ⟨rfl, rfl⟩, fun timed => absurd rfl timed⟩
  | r :: l, s, running => by
    rw [State.elapse_cons, Link.elapse_cons, lapseUs_cons]
    by_cases none : r.us = 0
    · rw [none, s.pass_zero, if_pos rfl, Nat.zero_add]
      exact State.elapse_running l s running
    · have pass : s.pass r.level r.us = s.ran r.us (s.link.pass s.opts.rate r.level r.us) := s.pass_running _ none running
      obtain ⟨still, more⟩ := State.elapse_running l (s.ran r.us (s.link.pass s.opts.rate r.level r.us)) running
      rw [if_neg none, pass]
      refine ⟨fun zero => by omega, fun _ => ?_⟩
      by_cases zero : lapseUs l = 0
      · obtain ⟨same, link⟩ := still zero
        rw [same, zero, Nat.add_zero]
        exact congrArg (s.ran r.us) link.symm
      · rw [more zero, State.ran_ran]
        rfl

/-- The link over a lapse of the running part is the link over its runs. -/
theorem State.elapse_link {s : State} (running : s.rst.asserted = false) (l : Lapse) :
    (s.elapse l).link = s.link.elapse s.opts.rate l := by
  obtain ⟨still, more⟩ := State.elapse_running l s running
  by_cases zero : lapseUs l = 0
  · rw [(still zero).1, (still zero).2]
  · rw [more zero]; rfl

/-- While reset is asserted a lapse moves the level and the start interval alone (log 21). -/
theorem State.elapse_inReset : ∀ (l : Lapse) (s : State), s.rst.asserted = true →
    ∃ start, s.elapse l = { s with
        link := { s.link with rx := ((timedRuns l).getLast?.map Run.level).getD s.link.rx }
        rst := { s.rst with start := start } } ∧
      (s.rst.acting = false → start = s.rst.start + lapseUs l)
  | [], s, _ => ⟨s.rst.start, rfl, fun _ => rfl⟩
  | r :: l, s, asserted => by
    rw [State.elapse_cons, lapseUs_cons]
    by_cases none : r.us = 0
    · have same : timedRuns (r :: l) = timedRuns l := by simp [timedRuns, none]
      rw [none, s.pass_zero, same, Nat.zero_add]
      exact State.elapse_inReset l s asserted
    · have more : timedRuns (r :: l) = r :: timedRuns l := by simp [timedRuns, none]
      rw [s.pass_asserted _ none asserted, more]
      obtain ⟨start, eq, idle⟩ := State.elapse_inReset l { s with
        link := { s.link with rx := r.level }
        rst := { s.rst with start := if s.rst.acting then 0 else s.rst.start + r.us } } asserted
      refine ⟨start, eq.trans ?_, fun acting => (idle acting).trans ?_⟩
      · cases timedRuns l <;> simp [List.getLast?_cons]
      · simp [acting, Nat.add_assoc]

/-- Every lapse, reset asserted or not, leaves what no timer and no line count is part of. -/
theorem State.elapse_frame (s : State) (l : Lapse) :
    ∃ timeBase belt scan lanes gate link station rst, s.elapse l = { s with
        timeBase := timeBase, belt := belt, scan := scan, outlets := { s.outlets with lanes := lanes }, gate := gate
        link := link, station := station, rst := rst } ∧
      (rst.asserted = s.rst.asserted ∧ rst.causes = s.rst.causes ∧ rst.supplyLow = s.rst.supplyLow ∧
        rst.pinLow = s.rst.pinLow) ∧
      (link.queue = s.link.queue ∧ link.waiting = s.link.waiting ∧ link.frame = s.link.frame ∧
        link.arbRead = s.link.arbRead ∧ link.latch = s.link.latch) ∧
      ∀ n : Fin 16, station.roster[n].state = s.station.roster[n].state ∧
        station.roster[n].fields = s.station.roster[n].fields := by
  cases asserted : s.rst.asserted with
  | true =>
    obtain ⟨start, eq, -⟩ := State.elapse_inReset l s asserted
    exact ⟨_, _, _, _, _, _, _, _, eq, ⟨asserted, rfl, rfl, rfl⟩, ⟨rfl, rfl, rfl, rfl, rfl⟩, fun _ => ⟨rfl, rfl⟩⟩
  | false =>
    obtain ⟨still, more⟩ := State.elapse_running l s asserted
    by_cases zero : lapseUs l = 0
    · exact ⟨_, _, _, _, _, _, _, _, (still zero).1, ⟨asserted, rfl, rfl, rfl⟩, ⟨rfl, rfl, rfl, rfl, rfl⟩,
        fun _ => ⟨rfl, rfl⟩⟩
    · obtain ⟨-, -, -, kept⟩ := Link.elapse_kept s.opts.rate l s.link
      refine ⟨_, _, _, _, _, _, _, _, more zero, ⟨asserted, rfl, rfl, rfl⟩, kept, fun n => ?_⟩
      simp [Station.pass, RosterSlot.pass]

/-- The samples of a bit time are 16 (R126). -/
theorem bitUs_eq (rate : Nat) : 16 / samplesPerUs rate = bitUs rate := by
  unfold samplesPerUs bitUs
  split
  · rfl
  · split <;> rfl

/-- Settles O4: a lapse is the running of its µs with the link that its runs leave, and in reset it moves the level and the
start interval. -/
theorem timePassesAlone : Obligations.TimePassesAlone := by
  unfold Obligations.TimePassesAlone
  rintro l s _ rfl
  have reset : s.rst.asserted = true → ∃ start, s.elapse l = { s with
        link := { s.link with rx := ((timedRuns l).getLast?.map Run.level).getD s.link.rx }
        rst := { s.rst with start := start } } ∧ (s.rst.acting = false → start = s.rst.start + lapseUs l) :=
    State.elapse_inReset l s
  refine ⟨⟨?level, fun running => ?counts, fun asserted => ?link⟩, ?frame, fun running => ?running, fun asserted => ?rest⟩
  case level =>
    cases asserted : s.rst.asserted with
    | true => obtain ⟨start, eq, -⟩ := reset asserted; rw [eq]; rfl
    | false => rw [State.elapse_link asserted]; exact (Link.elapse_kept ..).1
  case counts =>
    rw [State.elapse_link running]
    obtain ⟨idle, dominant⟩ := Link.elapse_counts s.opts.rate l s.link
    obtain ⟨state, arbTime⟩ := Link.elapse_arbitration s.opts.rate l s.link
    refine ⟨idle, dominant, (Link.elapse_kept ..).2.1, state.trans ?_, arbTime.trans ?_⟩
    all_goals rw [Link.wins, ← bitUs_eq]; rfl
  case link =>
    obtain ⟨start, eq, -⟩ := reset asserted
    rw [eq]
  case frame =>
    obtain ⟨_, _, _, _, _, _, _, _, eq, ⟨asserted, causes, supply, pin⟩, ⟨queue, waiting, frame, arbRead, latch⟩, roster⟩ :=
      s.elapse_frame l
    rw [eq]
    exact ⟨rfl, rfl, rfl, rfl, rfl, rfl, rfl, rfl, rfl, rfl, rfl, rfl, asserted, causes, supply, pin, queue, waiting, frame,
      arbRead, latch, roster⟩
  case running =>
    have breakTime := (Link.elapse_kept s.opts.rate l s.link).2.2.1
    have link := State.elapse_link running l
    obtain ⟨still, more⟩ := State.elapse_running l s running
    rw [← link] at breakTime
    by_cases zero : lapseUs l = 0
    · rw [(still zero).1, zero]
      simp only [Nat.add_zero, BitVec.add_zero, Option.map_id_fun', id_eq,
 ite_self, implies_true, and_true, true_and,
        imp_self]


      intro n t silence stop
      rw [silence, Nat.min_eq_left stop]
    · rw [more zero] at breakTime ⊢
      refine ⟨rfl, rfl, rfl, fun n => ?_, rfl, breakTime, rfl, rfl, rfl, rfl, rfl, rfl, fun n t silence _ => ?_, fun n silence => ?_,
        rfl, rfl⟩
      · simp [State.ran, Outlets.pass, Lane.pass]
      · simp only [Fin.getElem_fin] at silence ⊢
        simp [State.ran, Station.pass, RosterSlot.pass, silence]
      · simp only [Fin.getElem_fin] at silence ⊢
        simp [State.ran, Station.pass, RosterSlot.pass, silence]
  case rest =>
    obtain ⟨start, eq, idle⟩ := reset asserted
    rw [eq]
    exact ⟨rfl, rfl, rfl, rfl, rfl, rfl, fun acting => idle acting⟩

end Sys2Proof.Machine
end

section
/-! PROOFS. What the hand-on of an event does, where blocking begins and where it does not. -/

namespace Sys2Proof.Machine

/-! ### The beginning of blocking (R96, R119) -/

/-- A lane loses a holder for each of a number of windows: it is CLOSED when none is left (R93, R102). -/
theorem Lane.release_iterate (l : Lane) : ∀ k : Nat, Lane.release^[k] l =
    if k = 0 then l
    else if k < l.holders then { l with holders := l.holders - k }
    else { l with state := .closed, holders := 0, openedAt := none }
  | 0 => rfl
  | k + 1 => by
    rw [Function.iterate_succ_apply', Lane.release_iterate l k]
    unfold Lane.release
    by_cases zero : k = 0
    · subst zero
      by_cases one : l.holders ≤ 1
      · simp [one, Nat.not_lt.mpr one]
      · simp [one, Nat.lt_of_not_le one]
    · by_cases fewer : k + 1 < l.holders
      · have : k < l.holders := by omega
        have more : ¬l.holders - k ≤ 1 := by omega
        simp [zero, this, more, fewer]; omega
      · by_cases equal : k < l.holders
        · have last : l.holders - k ≤ 1 := by omega
          simp [zero, equal, last, fewer]
        · simp [zero, equal, fewer]

/-- A lane after windows have released it: a holder less for each whose grant holds it. -/
theorem foldl_releaseLanes (n : Fin 32) : ∀ (ws : List Window) (lanes : Vector Lane 32),
    (ws.foldl (fun lanes w => releaseLanes w.grant lanes) lanes)[n] =
      Lane.release^[ws.countP fun w => w.grant.getLsbD n.val] lanes[n]
  | [], _ => rfl
  | w :: ws, lanes => by
    have first : (releaseLanes w.grant lanes)[n] = if w.grant.getLsbD n.val then lanes[n].release else lanes[n] := by
      simp [releaseLanes, LaneSet.has]
    rw [List.foldl_cons, foldl_releaseLanes n ws, first, List.countP_cons]
    split <;> simp

/-- The gate with the holders of the cut windows gone (R96). -/
def State.gateCut (a : State) : Gate :=
  { a.gate with
    holders := if a.opts.kind = .gate then a.gate.holders - a.outlets.closeQ.length else a.gate.holders }

/-- The gate when blocking has begun: without a holder, one held out is released (R119). -/
def State.gateBlocked (a : State) : Gate :=
  if a.opts.kind = .gate ∧ a.gateCut.state.commanded = true ∧ a.gateCut.holders = 0 then
    a.gateCut.sendBack a.belt.count a.lead
  else a.gateCut

/-- When blocking begins the windows of the close queue leave it, settled TRIMMED with CUT, and the lanes and the gate lose what
they held (R96, R119). -/
theorem State.beginBlocking_eq (a : State) : a.beginBlocking = { a with
    outlets := { a.outlets with
      closeQ := []
      lanes := a.outlets.closeQ.foldl (fun lanes w => releaseLanes w.grant lanes) a.outlets.lanes }
    gate := a.gateBlocked
    table := { a.table with
      reports := a.table.reports ++
        a.outlets.closeQ.map fun w => .settled w.slot .trimmed none { w.flags with cut := true } } } := by
  have cut := foldl_cutWindow_eq a.outlets.closeQ (a.setCloseQ [])
  unfold State.beginBlocking State.gateBlocked
  dsimp only
  generalize a.outlets.closeQ.foldl State.cutWindow (a.setCloseQ []) = u at cut
  have gate : u.gate = a.gateCut := by rw [cut]; rfl
  have kind : u.opts.kind = a.opts.kind := by rw [cut]; rfl
  rw [gate, kind]
  by_cases out : a.opts.kind = .gate ∧ a.gateCut.state.commanded = true ∧ a.gateCut.holders = 0
  · rw [if_pos out, if_pos out, State.releaseGate, gate, cut]
    rfl
  · rw [if_neg out, if_neg out, cut]
    rfl

/-- The beginning of blocking takes no gate into or out of FAULT. -/
theorem State.gateBlocked_fault (a : State) : a.gateBlocked.state = .fault ↔ a.gate.state = .fault := by
  unfold State.gateBlocked
  split
  · rename_i out
    exact (Gate.sendBack_released (g := a.gateCut) out.2.1 a.belt.count a.lead).fault
  · exact Iff.rfl

/-! ### The hand-on -/

/-- Where blocking begins outlets, gate and report path change; nothing else does, and no counter (R96). -/
theorem blockIfBegun_eq (b a : State) : ∃ o g r, blockIfBegun b a = { a with
      outlets := o, gate := g, table := { a.table with reports := r } } ∧
    (g.state = .fault ↔ a.gate.state = .fault) ∧
    (b.blocked = true ∨ a.blocked = false → o = a.outlets ∧ g = a.gate ∧ r = a.table.reports) := by
  by_cases same : b.blocked = true ∨ a.blocked = false
  · exact ⟨a.outlets, a.gate, a.table.reports, blockIfBegun_of same, Iff.rfl, fun _ => ⟨rfl, rfl, rfl⟩⟩
  · obtain ⟨free, blocked⟩ := not_or.mp same
    unfold blockIfBegun
    rw [if_pos (by simp_all), a.beginBlocking_eq]
    exact ⟨_, _, _, rfl, a.gateBlocked_fault, fun h => absurd h same⟩

/-- After the beginning of blocking the attention set is joined, link work is done, and a tie may be marked. -/
theorem handOn_shape (b a : State) : ∃ k v c, handOn b a = { blockIfBegun b a with
      pending := b.pending
      link := k
      counters := v
      table := { (blockIfBegun b a).table with tied := c }
      port := { a.port with attention := a.port.attention.join (reasons b a) } } ∧
    (k = (attemptIfReady b (announce b (attend b (blockIfBegun b a)))).link ∧
      v = (attemptIfReady b (announce b (attend b (blockIfBegun b a)))).counters) ∧
    ∀ x : Counter, x ≠ .txDropped → x ≠ .txStale → v[x.index] = a.counters[x.index] := by
  obtain ⟨o, g, r, begun, fault, -⟩ := blockIfBegun_eq b a
  have attention : attend b (blockIfBegun b a) = { blockIfBegun b a with
      port := { a.port with attention := a.port.attention.join (reasons b a) } } := by
    simp only [attend, begun, reasons, fault]
  unfold handOn
  dsimp only
  obtain ⟨⟨k, v, worked⟩, counted⟩ :=
    (announce_work b (attend b (blockIfBegun b a))).trans (attemptIfReady_work b (announce b (attend b (blockIfBegun b a))))
  obtain ⟨c, marked⟩ := markTied_eq b (attemptIfReady b (announce b (attend b (blockIfBegun b a))))
  refine ⟨k, v, c, ?_, ?_, fun x dropped stale => ?_⟩
  · rw [marked, worked, attention]
  · rw [worked]; exact ⟨rfl, rfl⟩
  · have kept := counted x dropped stale
    rw [worked, attention, begun] at kept
    exact kept

/-- Settles O6: by what the beginning of blocking makes of queues, lanes and gate; the rest of the hand-on leaves them. -/
theorem blockingCutsWindows : Obligations.BlockingCutsWindows := by
  unfold Obligations.BlockingCutsWindows
  rintro b a _ rfl free blocked
  obtain ⟨k, v, c, shape, -, -⟩ := handOn_shape b a
  have begun : blockIfBegun b a = a.beginBlocking := by simp [blockIfBegun, free, blocked]
  rw [shape, begun, a.beginBlocking_eq]
  refine ⟨rfl, rfl, rfl, fun n => ?lane, fun kind holders => ?gate⟩
  case lane => exact (foldl_releaseLanes n a.outlets.closeQ a.outlets.lanes).trans (Lane.release_iterate ..)
  case gate =>
    have cut : a.gateCut = { a.gate with holders := 0 } := by simp [State.gateCut, kind, holders]
    have out : a.gate.state.commanded = true ↔ a.gate.state = .movingOut ∨ a.gate.state = .divert := by
      cases a.gate.state <;> simp [GateState.commanded]
    show a.gateBlocked = _
    unfold State.gateBlocked
    rw [cut]
    simp only [kind, out, true_and, and_true]
    split
    · have atRest : ∀ g : Gate, g.atRest = true ↔ g.swRest = false ∧ g.swDiv = true := fun g => by simp [Gate.atRest]
      unfold Gate.sendBack Gate.endInterval
      cases current : a.gate.current <;>
        by_cases back : a.gate.swRest = false ∧ a.gate.swDiv = true <;> simp [atRest, back, State.lead]
    · rfl


/-! ### The frame of the hand-on -/

/-- The outlets are blocked exactly as R95 says, on a station whose outlets are of a kind. -/
theorem State.blocked_iff (s : State) : s.blocked = true ↔
    s.station.state ≠ .running ∨ s.belt.state = .stopped ∨ s.belt.state = .reversing ∨ s.scan.band = .fault ∨
      (s.opts.kind = .gate ∧ s.gate.state = .fault) := by
  simp [State.blocked, State.gateFaulted, or_assoc]

/-- Any lane COOLING is some lane COOLING (R108). -/
theorem Outlets.anyCooling_iff (o : Outlets) : o.anyCooling = true ↔ ∃ n : Fin 32, o.lanes[n].state = .cooling := by
  simp [Outlets.anyCooling, List.any_eq_true]

/-- With the same conditions of an attempt before, an attempt whose head notice is not stale begins with it (R132). -/
theorem State.attempt_of_fresh {s : State} {n : Notice} {rest : List Notice} (may : s.mayAttempt = true)
    (queue : s.link.queue = n :: rest) (fresh : s.dropsAsStale n = false) :
    s.attempt = { s with link := { s.link with
      state := .arbitrating, queue := { n with attempted := true } :: rest, frame := some (frameOf n), arbTime := some 0
      arbRead := [], latch := none } } := by
  have checked : s.staleChecks = s := by
    simp [State.staleChecks, queue, fresh, State.bumps]
  simp only [State.attempt, may, if_true, State.beginAttempt, checked, queue]

/-- A HELLO that finds room, with none queued or pending, joins (R141). -/
theorem State.offerHello_of_room {s : State} (h : HelloFields) (waiting : s.link.waiting = none)
    (none : ∀ n ∈ s.link.queue, n.isHello = false) (room : s.link.queue.length < 16) :
    s.offerHello h = { s with link := { s.link with queue := queueWith (helloNotice s.station.number h) s.link.queue } } := by
  have found : s.link.queue.find? Notice.isHello = .none := List.find?_eq_none.mpr fun n hn => by simp [none n hn]
  simp [State.offerHello, waiting, found, room, joinQueue_eq_queueWith]

/-- A PIECE with a listener still before it is not stale (R150). -/
theorem State.dropsAsStale_eq_false {s : State} {n : Notice}
    (fresh : ∀ p, n.body = .piece p → ∃ f ∈ s.listeners, (s.opts.s : Int) + diff s.belt.count p.lead < (f.s : Int)) :
    s.dropsAsStale n = false := by
  unfold State.dropsAsStale
  split
  · rename_i p body
    obtain ⟨f, listens, before⟩ := fresh p body
    simp only [State.isStale, Bool.not_eq_false', List.any_eq_true]
    exact ⟨f, listens, decide_eq_true before⟩
  · rfl
  · rfl

/-- An event that announces nothing, or may not, requests no HELLO (R142, R165). -/
theorem announce_of_silent {b a : State} (h : (announces b a && a.mayRequest) = false) : announce b a = a := by
  unfold announce State.requestHello
  cases changed : announces b a with
  | false => rfl
  | true =>
    have muted : a.mayRequest = false := by simpa [changed] using h
    simp [muted]

/-- An event that announces something, and may, requests a HELLO of the values in force (R146, R165). -/
theorem announce_of_changed {b a : State} (h : (announces b a && a.mayRequest) = true) :
    announce b a = a.offerHello a.helloNow := by
  obtain ⟨changed, may⟩ := (Bool.and_eq_true _ _).mp h
  simp [announce, changed, State.requestHello, may]

/-- An event that brings about the conditions of an attempt makes it (R132). -/
theorem attemptIfReady_of_ready {b a : State} (h : b.mayAttempt = false) : attemptIfReady b a = a.attempt := by
  simp [attemptIfReady, h]

/-- The link with the attempt of a notice begun, the others behind it (R132). -/
def Link.starting (k : Link) (n : Notice) (rest : List Notice) : Link :=
  { k with
    state := .arbitrating, queue := { n with attempted := true } :: rest, frame := some (frameOf n), arbTime := some 0
    arbRead := [], latch := none }

/-- Where no HELLO is requested, an event is followed by no more than the attempt that it brings about (R132). -/
theorem linkWork_of_silent {b x : State} (silent : (announces b x && x.mayRequest) = false) :
    (b.mayAttempt = true ∨ x.mayAttempt = false → attemptIfReady b (announce b x) = x) ∧
      (b.mayAttempt = false → x.mayAttempt = true → ∀ n rest, x.link.queue = n :: rest → x.dropsAsStale n = false →
        attemptIfReady b (announce b x) = { x with link := x.link.starting n rest }) := by
  rw [announce_of_silent silent]
  refine ⟨attemptIfReady_of, fun before now n rest queue fresh => ?_⟩
  rw [attemptIfReady_of_ready before, State.attempt_of_fresh now queue fresh]
  rfl

/-- Where a HELLO is requested and finds room, it joins, and an attempt may follow (R132, R141, R165). -/
theorem linkWork_of_speaks {b x : State} (speaks : (announces b x && x.mayRequest) = true) (waiting : x.link.waiting = none)
    (none : ∀ n ∈ x.link.queue, n.isHello = false) (room : x.link.queue.length < 16) {y : State}
    (joined : y = { x with link := { x.link with
      queue := queueWith (helloNotice x.station.number x.helloNow) x.link.queue } }) :
    (b.mayAttempt = true ∨ y.mayAttempt = false → attemptIfReady b (announce b x) = y) ∧
      (b.mayAttempt = false → y.mayAttempt = true → x.link.queue = [] →
        attemptIfReady b (announce b x) =
          { x with link := x.link.starting (helloNotice x.station.number x.helloNow) [] }) := by
  rw [announce_of_changed speaks, State.offerHello_of_room _ waiting none room, ← joined]
  refine ⟨attemptIfReady_of, fun before now empty => ?_⟩
  have queue : y.link.queue = [helloNotice x.station.number x.helloNow] := by rw [joined, empty]; rfl
  rw [attemptIfReady_of_ready before, State.attempt_of_fresh now queue rfl, joined]
  rfl

/-- Settles O5: the attention joins, blocking may begin, a HELLO may be requested and an attempt begun, and nothing else. -/
theorem handOnFrame : Obligations.HandOnFrame := by
  unfold Obligations.HandOnFrame
  refine ⟨fun s => ⟨fun _ => s.blocked_iff, ?outlet⟩, ?frame⟩
  case outlet =>
    have faulted : s.gateFaulted = true ↔ s.opts.kind = .gate ∧ s.gate.state = .fault := by simp [State.gateFaulted]
    simp only [State.outletState, Outlets.anyCooling_iff, faulted]
  case frame =>
    rintro b a _ rfl
    obtain ⟨k, v, c, shape, ⟨link, counters⟩, counted⟩ := handOn_shape b a
    obtain ⟨o, g, r, begun, fault, free⟩ := blockIfBegun_eq b a
    rw [shape]
    refine ⟨by simp [begun], rfl, fun still => by simpa [begun] using free still, fun u hu => ?link, counted⟩
    rw [← hu] at link counters begun
    have permitted : (decide (u.station.state = .running ∨ u.station.state = .paused) && !u.station.mute) =
        (attend b u).mayRequest := by rw [Bool.decide_or]; rfl
    have sameLink : (attend b u).link = a.link := by rw [begun]; rfl
    have sameCounters : (attend b u).counters = a.counters := by rw [begun]; rfl
    dsimp only
    rw [permitted]
    refine ⟨fun silent => ?silent, fun speaks waiting no room => ?speaks⟩
    case silent =>
      obtain ⟨rests, starts⟩ := linkWork_of_silent (x := attend b u) silent
      refine ⟨fun none => ?_, fun before now n rest queue fresh => ?_⟩
      · rw [rests (none.imp id fun h => by rw [← sameLink] at h; exact h)] at link counters
        exact ⟨link.trans sameLink, counters.trans sameCounters⟩
      · have notStale : (attend b u).dropsAsStale n = false := State.dropsAsStale_eq_false (by rw [begun]; exact fresh)
        rw [← sameLink] at now queue
        rw [starts before now n rest queue notStale] at link counters
        rw [sameLink] at link
        exact ⟨link, counters.trans sameCounters⟩
    case speaks =>
      rw [← sameLink] at waiting no room
      obtain ⟨rests, starts⟩ := linkWork_of_speaks (x := attend b u) speaks waiting no room rfl
      refine ⟨fun none => ?_, fun before now empty => ?_⟩
      · rw [rests (none.imp id fun h => by rw [← sameLink] at h; exact h)] at link counters
        rw [sameLink] at link
        exact ⟨link, counters.trans sameCounters⟩
      · rw [← sameLink] at now empty
        rw [starts before now empty] at link counters
        rw [sameLink] at link
        exact ⟨link, counters.trans sameCounters⟩

/-! ### What the hand-on leaves -/

section

variable (b a : State)

@[simp] theorem handOn_timeBase : (handOn b a).timeBase = a.timeBase := by
  obtain ⟨_, _, _, shape, -⟩ := handOn_shape b a
  obtain ⟨_, _, _, begun, -⟩ := blockIfBegun_eq b a
  rw [shape, begun]

@[simp] theorem handOn_opts : (handOn b a).opts = a.opts := by
  obtain ⟨_, _, _, shape, -⟩ := handOn_shape b a
  obtain ⟨_, _, _, begun, -⟩ := blockIfBegun_eq b a
  rw [shape, begun]

@[simp] theorem handOn_belt : (handOn b a).belt = a.belt := by
  obtain ⟨_, _, _, shape, -⟩ := handOn_shape b a
  obtain ⟨_, _, _, begun, -⟩ := blockIfBegun_eq b a
  rw [shape, begun]

@[simp] theorem handOn_scan : (handOn b a).scan = a.scan := by
  obtain ⟨_, _, _, shape, -⟩ := handOn_shape b a
  obtain ⟨_, _, _, begun, -⟩ := blockIfBegun_eq b a
  rw [shape, begun]

@[simp] theorem handOn_former : (handOn b a).former = a.former := by
  obtain ⟨_, _, _, shape, -⟩ := handOn_shape b a
  obtain ⟨_, _, _, begun, -⟩ := blockIfBegun_eq b a
  rw [shape, begun]

@[simp] theorem handOn_slots : (handOn b a).table.slots = a.table.slots := by
  obtain ⟨_, _, _, shape, -⟩ := handOn_shape b a
  obtain ⟨_, _, _, begun, -⟩ := blockIfBegun_eq b a
  rw [shape, begun]

@[simp] theorem handOn_escapes : (handOn b a).table.escapes = a.table.escapes := by
  obtain ⟨_, _, _, shape, -⟩ := handOn_shape b a
  obtain ⟨_, _, _, begun, -⟩ := blockIfBegun_eq b a
  rw [shape, begun]

@[simp] theorem handOn_inFlight : (handOn b a).table.inFlight = a.table.inFlight := by
  obtain ⟨_, _, _, shape, -⟩ := handOn_shape b a
  obtain ⟨_, _, _, begun, -⟩ := blockIfBegun_eq b a
  rw [shape, begun]

@[simp] theorem handOn_rxQueue : (handOn b a).rxQueue = a.rxQueue := by
  obtain ⟨_, _, _, shape, -⟩ := handOn_shape b a
  obtain ⟨_, _, _, begun, -⟩ := blockIfBegun_eq b a
  rw [shape, begun]

@[simp] theorem handOn_station : (handOn b a).station = a.station := by
  obtain ⟨_, _, _, shape, -⟩ := handOn_shape b a
  obtain ⟨_, _, _, begun, -⟩ := blockIfBegun_eq b a
  rw [shape, begun]

@[simp] theorem handOn_store : (handOn b a).store = a.store := by
  obtain ⟨_, _, _, shape, -⟩ := handOn_shape b a
  obtain ⟨_, _, _, begun, -⟩ := blockIfBegun_eq b a
  rw [shape, begun]

@[simp] theorem handOn_rst : (handOn b a).rst = a.rst := by
  obtain ⟨_, _, _, shape, -⟩ := handOn_shape b a
  obtain ⟨_, _, _, begun, -⟩ := blockIfBegun_eq b a
  rw [shape, begun]

@[simp] theorem handOn_response : (handOn b a).port.response = a.port.response := by
  obtain ⟨_, _, _, shape, -⟩ := handOn_shape b a
  rw [shape]

@[simp] theorem handOn_deferred : (handOn b a).port.deferred = a.port.deferred := by
  obtain ⟨_, _, _, shape, -⟩ := handOn_shape b a
  rw [shape]

@[simp] theorem handOn_attention : (handOn b a).port.attention = a.port.attention.join (reasons b a) := by
  obtain ⟨_, _, _, shape, -⟩ := handOn_shape b a
  rw [shape]

/-- The hand-on counts no more than dropped notices. -/
theorem handOn_counter {c : Counter} (dropped : c ≠ .txDropped) (stale : c ≠ .txStale) :
    (handOn b a).counter c = a.counter c := by
  obtain ⟨k, v, t, shape, -, counted⟩ := handOn_shape b a
  rw [shape]
  exact counted c dropped stale

variable {b a}

/-- Where no blocking begins the hand-on leaves the outlets (R96). -/
theorem handOn_outlets (still : b.blocked = true ∨ a.blocked = false) : (handOn b a).outlets = a.outlets := by
  obtain ⟨_, _, _, shape, -⟩ := handOn_eq still
  rw [shape]

/-- Where no blocking begins the hand-on leaves the gate (R96). -/
theorem handOn_gate (still : b.blocked = true ∨ a.blocked = false) : (handOn b a).gate = a.gate := by
  obtain ⟨_, _, _, shape, -⟩ := handOn_eq still
  rw [shape]

/-- Where no blocking begins the hand-on leaves the report path (R96). -/
theorem handOn_reports (still : b.blocked = true ∨ a.blocked = false) : (handOn b a).table.reports = a.table.reports := by
  obtain ⟨_, _, _, shape, -⟩ := handOn_eq still
  rw [shape]

/-- Whether blocking begins or not, the open queue stays (R96). -/
theorem handOn_openQ : (handOn b a).outlets.openQ = a.outlets.openQ := by
  have begun : (blockIfBegun b a).outlets.openQ = a.outlets.openQ := by
    unfold blockIfBegun
    split
    · rw [a.beginBlocking_eq]
    · rfl
  exact ((handOn_keepsBut b a).same .openQ (by simp)).trans begun

end

end Sys2Proof.Machine
end

section
/-! PROOFS. The belt tracker's commands. -/

namespace Sys2Proof.Machine

/-- A command of the running part other than a RESET that begins a reset acts after its lapse and is handed on. -/
theorem exec_running {c : Instr} {s e t : State} (he : e = s.elapse c.lapse) (running : e.rst.asserted = false)
    (other : c.actsInReset = false) (keeps : e.resets c = false) (act : e.act c = t) : exec c s = .next (handOn e t) := by
  rw [exec_eq_event other (he ▸ keeps)]
  exact event_eq he running act

/-- A claimant read ahead leaves everything but the queues it may be taken from and the table's flight (R86). -/
theorem readAhead_frame {e g : State} {between : Option Claimant} (hg : g = e.readAhead between) :
    ∃ q x r f c, g = { e with
      former := { e.former with queue := q }, rxQueue := x, table := { e.table with reports := r, inFlight := f, tied := c } } :=
  hg ▸ e.readAhead_eq between

/-- An edge is taken with the new pair as the reference (R1). -/
theorem execEncoderEdge_eq {l : Lapse} {between : Option Claimant} {a b : Bool} {s e g : State} (he : e = s.elapse l)
    (running : e.rst.asserted = false) (hg : g = e.readAhead between) :
    exec (.encoderEdge ⟨l, between⟩ a b) s = .next (handOn e
      (State.takeEdge { g with belt := { e.belt with encA := a, encB := b } } (edgeOf e.belt.encA e.belt.encB a b))) := by
  have belt : g.belt = e.belt := by obtain ⟨_, _, _, _, _, h⟩ := readAhead_frame hg; rw [h]
  refine exec_running he running rfl rfl ?_
  rw [State.act, ← hg, State.encoderEdge, belt]

/-- Settles O8: by what each edge does that makes no step, and by the cases of the silence timer. -/
theorem edgesAndSilence : Obligations.EdgesAndSilence := by
  unfold Obligations.EdgesAndSilence
  refine ⟨fun l a b between s e g he running hg => ?edges, fun l s e he running => ?silence⟩
  case edges =>
    have opts : g.opts = e.opts := by obtain ⟨_, _, _, _, _, h⟩ := readAhead_frame hg; rw [h]
    have belt : g.belt = e.belt := by obtain ⟨_, _, _, _, _, h⟩ := readAhead_frame hg; rw [h]
    rw [execEncoderEdge_eq he running hg]
    refine ⟨fun pair inside => ?_, fun pair inside => ?_, fun ha hb => ?_, fun ha hb => ?_⟩
    · rw [edgeOf_of_forward pair, State.takeEdge]
      dsimp only
      rw [opts, if_neg (by omega)]
    · rw [edgeOf_of_backward pair, State.takeEdge]
      dsimp only
      rw [if_neg inside]
    · rw [edgeOf_of_both ha hb, State.takeEdge]
    · rw [ha, hb, edgeOf_self, State.takeEdge]
      exact congrArg (fun x => Host.Outcome.next (handOn e { g with belt := x })) belt.symm
  case silence =>
    have run : exec (.stepSilenceExpiry l) s = .next (handOn e e.silenceExpiry) := exec_running he running rfl rfl rfl
    refine ⟨fun n time limit moves => ?_, fun n time limit stopped => ?_, fun short => ?_⟩
    · rw [run, State.silenceExpiry, time]
      dsimp only
      rw [if_neg (Nat.not_lt.mpr limit : ¬n < silenceLimit), if_neg moves]
      rfl
    · rw [run, State.silenceExpiry, time]
      dsimp only
      rw [if_neg (Nat.not_lt.mpr limit : ¬n < silenceLimit), if_pos stopped]
    · rw [run, State.silenceExpiry]
      split
      · rename_i n time
        rw [if_pos (show n < silenceLimit from short n time)]

      · rfl

/-! ### Steps -/

/-- A forward step makes the row test on its own belt, triggers the scan unit with the row, and hands on to the outlets (R10,
R11). -/
theorem State.stepForward_eq (s : State) {belt : Belt} {due : Bool}
    (hdue : due = (s.belt.forwardStep s.timeBase).rowDue s.opts.r)
    (hbelt : belt = { s.belt.forwardStep s.timeBase with
      lastRow := if due then some (s.belt.forwardStep s.timeBase).count else (s.belt.forwardStep s.timeBase).lastRow }) :
    s.stepForward = State.outletStep (if due then State.trigger { s with belt := belt } belt.count else { s with belt := belt })
      (decide (belt.state = .moving) && decide (s.belt.state ≠ .moving)) := by
  unfold State.stepForward State.rowTest
  dsimp only
  rw [← hdue]
  subst hbelt
  cases due with
  | false => rfl
  | true =>
    have kept : (State.trigger { s with belt := { s.belt.forwardStep s.timeBase with
        lastRow := some (s.belt.forwardStep s.timeBase).count } } (s.belt.forwardStep s.timeBase).count).belt =
        { s.belt.forwardStep s.timeBase with lastRow := some (s.belt.forwardStep s.timeBase).count } :=
      (State.trigger_keepsBut _ _).same .belt (by simp)
    simp only [if_true, kept]

/-- A row trigger reads the options, the station state and the scan unit (R18). -/
theorem State.trigger_scan_congr {s t : State} (opts : t.opts = s.opts) (station : t.station.state = s.station.state)
    (scan : t.scan = s.scan) (row : Count) : (t.trigger row).scan = (s.trigger row).scan := by
  unfold State.trigger
  rw [opts, station, scan]
  split
  · split <;> rfl
  · exact scan

/-- A forward step in STOPPED or REVERSING (R6, R7, R8). -/
theorem Belt.forwardStep_of_still {b : Belt} (h : b.state = .stopped ∨ b.state = .reversing) (now : TimeBase) :
    b.forwardStep now = { b with
      sub := 0, count := b.count + 1, silence := some 0, ring := [], origin := some now, t64 := 4194303
      state := .unsettled } := by
  rcases h with h | h <;> simp only [Belt.forwardStep, h] <;> rfl

/-- The speed that a forward step in UNSETTLED or MOVING measures (R7, R8). -/
theorem Belt.forwardStep_of_measuring {b : Belt} (h : b.state = .unsettled ∨ b.state = .moving) (now : TimeBase) :
    b.forwardStep now =
      (let room : Bool := decide (b.ring.length < 64);
        let ring := if room then b.ring ++ [now] else b.ring.drop 1 ++ [now];
        let origin := if room then b.origin else b.ring.head?;
        let n := ring.length;
        let dt := (now - origin.getD 0).toNat;
        { b with
          count := b.count + 1, sub := 0, silence := some 0, ring := ring, origin := origin
          state := if b.state = .unsettled ∧ n < 8 then .unsettled else .moving
          t64 := if 8 ≤ n then max 4000 (min 4194303 (dt * 64 / n)) else 4194303 }) := by
  have measured : b.forwardStep now =
      (let s := Belt.stamp { b with sub := 0, count := b.count + 1, silence := some 0 } now;
        { s with
          t64 := speedFigure s.ring.length s.delta
          state := if s.state = .unsettled ∧ s.ring.length < 8 then .unsettled else .moving }) := by
    rcases h with h | h <;> simp only [Belt.forwardStep, h]
  rw [measured]
  unfold Belt.stamp Belt.delta speedFigure sinceTime
  by_cases room : b.ring.length < 64
  · simp [room, noSpeed]
  · have first : ∃ t rest, b.ring = t :: rest := by
      cases ring : b.ring with
      | nil => simp [ring] at room
      | cons t rest => exact ⟨t, rest, rfl⟩
    obtain ⟨t, rest, ring⟩ := first
    have full : ¬rest.length + 1 < 64 := by simpa [ring] using room
    simp [full, noSpeed, ring]

/-- The row test as the statements write it (R10). -/
theorem Belt.rowDue_eq (r : Nat) (b : Belt) : b.rowDue r = (match b.lastRow with
    | none => true
    | some k => decide (0 ≤ diff b.count (shift k (r : Int)))) := rfl

/-- A row test's trigger leaves the state but for the scan unit, which becomes as the trigger alone leaves it, and one counter
(R10, R18, R23). -/
theorem trigger_frame {e x : State} (opts : x.opts = e.opts) (station : x.station = e.station) (scan : x.scan = e.scan)
    (due : Bool) (row : Count) : ∃ v, (if due then x.trigger row else x) =
        { x with scan := if due then (e.trigger row).scan else e.scan, counters := v } ∧
      ∀ c : Counter, c ≠ .rowOverrun → v[c.index] = x.counters[c.index] := by
  cases due with
  | false => exact ⟨x.counters, by rw [← scan]; rfl, fun _ _ => rfl⟩
  | true =>
    obtain ⟨⟨c, v, triggered⟩, counted⟩ := x.trigger_eq row
    have sameScan := State.trigger_scan_congr opts (by rw [station]) scan row
    rw [triggered] at sameScan counted
    refine ⟨v, ?_, fun c hc => counted c hc⟩
    rw [if_pos rfl, if_pos rfl, triggered, ← sameScan]

/-- A forward edge that carries the sub-count across its boundary is a forward step, with its row test and the outlets' work
(R2, R10, R11). -/
theorem takeEdge_forward_step {e g : State} {between : Option Claimant} (hg : g = e.readAhead between) {a b : Bool}
    (full : e.opts.p ≤ e.belt.sub + 1) {belt : Belt} {due : Bool}
    (hdue : due = (Belt.forwardStep { e.belt with encA := a, encB := b } e.timeBase).rowDue e.opts.r)
    (hbelt : belt = { Belt.forwardStep { e.belt with encA := a, encB := b } e.timeBase with
      lastRow := if due then some (Belt.forwardStep { e.belt with encA := a, encB := b } e.timeBase).count
        else (Belt.forwardStep { e.belt with encA := a, encB := b } e.timeBase).lastRow }) :
    State.takeEdge { g with belt := { e.belt with encA := a, encB := b } } .forward =
      State.outletStep (if due then State.trigger { g with belt := belt } belt.count else { g with belt := belt })
        (decide (belt.state = .moving) && decide (e.belt.state ≠ .moving)) := by
  have opts : g.opts = e.opts := by obtain ⟨_, _, _, _, _, h⟩ := readAhead_frame hg; rw [h]
  have time : g.timeBase = e.timeBase := by obtain ⟨_, _, _, _, _, h⟩ := readAhead_frame hg; rw [h]
  rw [State.takeEdge]
  dsimp only
  rw [if_pos (by rw [opts]; exact full)]
  rw [← opts, ← time] at hdue
  rw [← time] at hbelt
  exact State.stepForward_eq { g with belt := { e.belt with encA := a, encB := b } } hdue hbelt

/-- On a belt that is not MOVING a forward step only lets old divert intervals leave (R94, R113). -/
theorem State.outletStep_of_still {s : State} (still : s.belt.state ≠ .moving) (became : Bool) :
    s.outletStep became = { s with gate := s.gate.expire s.belt.count } := by
  unfold State.outletStep
  dsimp only
  rw [if_neg still]

/-- The close event of a window counts no more than a hold-through (R117). -/
theorem State.closeEvent_counter {c : Counter} (other : c ≠ .holdThrough) (s : State) (L : Nat) (w : Window) :
    (s.closeEvent L w).counter c = s.counter c := by
  unfold State.closeEvent
  split
  · rfl
  · unfold State.gateCloseEvent
    dsimp only
    split
    · split
      · exact State.counter_bump_of_ne _ other
      · rfl
    · rfl
  · rfl

/-- The outlets' work at a forward step counts no more than hold-throughs (R117). -/
theorem State.outletStep_counter {c : Counter} (other : c ≠ .holdThrough) (s : State) (became : Bool) :
    (s.outletStep became).counter c = s.counter c := by
  refine State.outletStep_keeps (P := fun u => u.counter c = s.counter c) (fun _ _ h => h) (fun _ _ h => h) (fun _ _ h => h)
    (fun u L w _ _ h => ?opens) (fun u L isDue fresh h => ?closes) (fun u L h => ?hold) s became rfl
  case opens =>
    unfold State.openEvent
    split
    · unfold State.laneOpenEvent
      dsimp only
      split
      · exact h
      · split <;> exact h
    · unfold State.gateOpenEvent
      split <;> exact h
    · exact h
  case closes =>
    have closes : ∀ (ws : List Window) (u : State), (ws.foldl (fun s w => s.closeEvent L w) u).counter c = u.counter c := by
      intro ws
      induction ws with
      | nil => exact fun u => rfl
      | cons w ws ih => exact fun u => (ih _).trans (u.closeEvent_counter other L w)
    exact (closes _ _).trans h
  case hold =>
    unfold State.holdStep
    split <;> exact h

/-- Settles O9: an UNSETTLED belt moves no outlet, and outlets that were blocked do not begin to be. -/
theorem forwardStepUnsettles : Obligations.ForwardStepUnsettles := by
  unfold Obligations.ForwardStepUnsettles
  intro l a b between s e g he running hg pair full still due hdue
  have step := Belt.forwardStep_of_still (b := { e.belt with encA := a, encB := b }) still e.timeBase
  have blocked : e.blocked = true := e.blocked_iff.mpr (still.elim (fun h => .inr (.inl h)) fun h => .inr (.inr (.inl h)))
  refine ⟨_, execEncoderEdge_eq he running hg, ?_⟩
  have acts := takeEdge_forward_step (due := due) hg full (a := a) (b := b) (by rw [hdue, step]; rfl) rfl
  rw [edgeOf_of_forward pair, acts, step]
  obtain ⟨q, x, r, f, t, ahead⟩ := readAhead_frame hg
  obtain ⟨v, frame, counted⟩ := trigger_frame (e := e) (x := { g with belt := { e.belt with
      count := e.belt.count + 1, sub := 0, encA := a, encB := b, state := .unsettled, silence := some 0, ring := []
      origin := some e.timeBase, t64 := 4194303
      lastRow := if due then some (e.belt.count + 1) else e.belt.lastRow } })
    (by rw [ahead]) (by rw [ahead]) (by rw [ahead]) due (e.belt.count + 1)
  rw [frame, State.outletStep_of_still (by simp)]
  refine ⟨by simp, by simp, by simp, ?_, ?_, ?_, ?_, ?_, ?_, ?_, ?_, ?_, ?_, ?_, ?_, fun c overrun dropped stale => ?_⟩
  · rw [handOn_outlets (.inl blocked)]; simp [ahead]
  · rw [handOn_gate (.inl blocked)]; simp [ahead, Gate.expire]
  · rw [handOn_gate (.inl blocked)]; simp [ahead, Gate.expire]
  · rw [handOn_gate (.inl blocked)]; simp [ahead, Gate.expire]
  · simp [ahead]
  · simp [ahead]
  · rw [handOn_reports (.inl blocked)]
  · simp
  · simp [ahead]
  · simp [ahead]
  · simp [ahead]
  · simp [ahead]
  · rw [handOn_counter _ _ dropped stale]
    exact (counted c overrun).trans (by rw [ahead]; rfl)

/-- Settles O10: the belt measures, makes its row test and hands on to the outlets, which leave everything but their own. -/
theorem forwardStepMeasures : Obligations.ForwardStepMeasures := by
  unfold Obligations.ForwardStepMeasures
  intro l a b between s e g he running hg pair full measuring due hdue belt hbelt
  have step := Belt.forwardStep_of_measuring (b := { e.belt with encA := a, encB := b }) measuring e.timeBase
  have count : (Belt.forwardStep { e.belt with encA := a, encB := b } e.timeBase).count = e.belt.count + 1 := by rw [step]
  have lastRow : (Belt.forwardStep { e.belt with encA := a, encB := b } e.timeBase).lastRow = e.belt.lastRow := by rw [step]
  have wasUnsettled : decide (e.belt.state ≠ .moving) = decide (e.belt.state = .unsettled) := by
    rcases measuring with h | h <;> simp [h]
  have whole : belt = { Belt.forwardStep { e.belt with encA := a, encB := b } e.timeBase with
      lastRow := if due then some (Belt.forwardStep { e.belt with encA := a, encB := b } e.timeBase).count
        else (Belt.forwardStep { e.belt with encA := a, encB := b } e.timeBase).lastRow } := by
    rw [hbelt, step]
  have acts := takeEdge_forward_step hg full (by rw [hdue, Belt.rowDue_eq, lastRow, count] <;> rfl) whole
  refine ⟨_, _, execEncoderEdge_eq he running hg, rfl, ?_⟩
  rw [edgeOf_of_forward pair, acts, wasUnsettled, Bool.and_comm]
  obtain ⟨q, x, r, f, t, ahead⟩ := readAhead_frame hg
  have beltCount : belt.count = e.belt.count + 1 := by rw [hbelt]
  obtain ⟨v, frame, counted⟩ := trigger_frame (e := e) (x := { g with belt := belt })
    (by rw [ahead]) (by rw [ahead]) (by rw [ahead]) due belt.count
  rw [frame]
  generalize made : ({ g with
    belt := belt, scan := if due then (e.trigger belt.count).scan else e.scan, counters := v } : State) = w
  obtain ⟨o, gate, reports, v', work⟩ := (w.outletStep_work (decide (belt.state = .moving) && decide (e.belt.state = .unsettled))).eq
  have counts : ∀ c : Counter, c ≠ .rowOverrun → w.counter c = e.counter c := fun c overrun => by
    rw [← made]
    exact (counted c overrun).trans (by rw [ahead]; rfl)
  rw [beltCount] at made
  rw [Bool.and_comm] at work
  obtain ⟨belt', scan, former, slots, escapes, queue, station, store, rst, response⟩ :
      w.belt = belt ∧ w.scan = (if due then (e.trigger (e.belt.count + 1)).scan else e.scan) ∧ w.former = g.former ∧
        w.table.slots = e.table.slots ∧ w.table.escapes = e.table.escapes ∧ w.rxQueue = g.rxQueue ∧ w.station = e.station ∧
        w.store = e.store ∧ w.rst = e.rst ∧ w.port.response = e.port.response := by
    rw [← made, ahead]
    exact ⟨rfl, rfl, rfl, rfl, rfl, rfl, rfl, rfl, rfl, rfl⟩
  refine ⟨rfl, ?_, ?_, ?_, ?_, ?_, ?_, ?_, ?_, ?_, ?_, fun c overrun through dropped stale => ?_⟩
  · simp only [handOn_belt, work, belt']
  · simp only [handOn_scan, work, scan]
  · simp only [handOn_former, work, former]
  · simp only [handOn_slots, work, slots]
  · simp only [handOn_escapes, work, escapes]
  · simp only [handOn_rxQueue, work, queue]
  · simp only [handOn_station, work, station]
  · simp only [handOn_store, work, store]
  · simp only [handOn_rst, work, rst]
  · simp only [handOn_response, work, response]
  · rw [handOn_counter _ _ dropped stale, State.outletStep_counter through, counts c overrun]

/-- Settles O11: a backward step changes the belt alone before it is handed on. -/
theorem backwardStepReverses : Obligations.BackwardStepReverses := by
  unfold Obligations.BackwardStepReverses
  intro l a b between s e g he running hg pair first
  refine ⟨_, execEncoderEdge_eq he running hg, ?_⟩
  obtain ⟨q, x, r, f, t, ahead⟩ := readAhead_frame hg
  have opts : g.opts = e.opts := by rw [ahead]
  have acts : State.takeEdge { g with belt := { e.belt with encA := a, encB := b } } .backward =
      { g with belt := Belt.backwardStep e.opts.p { e.belt with encA := a, encB := b } } := by
    rw [State.takeEdge]
    dsimp only
    rw [if_pos first, opts]
  rw [edgeOf_of_backward pair, acts]
  refine ⟨by simp [Belt.backwardStep, noSpeed], ?_, by simp, ?_, ?_, ?_, by simp, ?_, ?_, ?_, ?_, fun c dropped stale => ?_⟩
  · simp [ahead]
  · rw [handOn_openQ]; simp [ahead]
  · simp [ahead]
  · simp [ahead]
  · simp [ahead]
  · simp [ahead]
  · simp [ahead]
  · simp [ahead]
  · rw [handOn_counter _ _ dropped stale, ahead]; rfl

end Sys2Proof.Machine
end

section
/-! PROOFS. The scan unit's commands, and the drop to the budget. -/

namespace Sys2Proof.Machine

/-! ### Transactions -/

/-- A transaction of the running part, whole, with the arguments its command needs, acts by the command's own rule (R172, R174). -/
theorem State.transact_taken {e : State} {t : Transaction} {needs : Nat} {ok : List Byte → Bool} {own : State → State}
    (running : e.rst.asserted = false) (selected : t.selected ≤ e.rst.sinceEnd) (writing : e.store.writing = none)
    (enough : needs ≤ t.args.length) (good : ok t.args = true) : e.transact t needs ok own = own e.discardResponse := by
  have notIgnored : e.ignores t = false := by simp [State.ignores, running, selected]
  have test : e.portTest needs ok t.args = none := by
    simp [State.portTest, writing, Nat.not_lt.mpr enough, good]
  simp [State.transact, notIgnored, State.command, test]

/-! ### Row triggers -/

/-- Settles O12: by the sweep in flight and the converter pair's job. -/
theorem rowTriggerAcceptance : Obligations.RowTriggerAcceptance := by
  unfold Obligations.RowTriggerAcceptance
  intro s row
  refine ⟨fun ignored => ?_, fun scans active => ⟨fun none free => ?_, fun none busy => ?_, fun w flight => ?_⟩⟩
  · have not : ¬(s.opts.scan = true ∧ s.station.state ≠ .setup) := by
      rintro ⟨scans, active⟩
      rcases ignored with blind | setup
      · rw [blind] at scans; cases scans
      · exact active setup
    rw [State.trigger, if_neg not]
  · rw [State.trigger, if_pos ⟨scans, active⟩, none]
    simp [Scan.arbitrate, free]
  · obtain ⟨job, running⟩ := Option.ne_none_iff_exists'.mp busy
    rw [State.trigger, if_pos ⟨scans, active⟩, none]
    dsimp only
    rw [Scan.arbitrate_busy (j := job) (by exact running)]
  · rw [State.trigger, if_pos ⟨scans, active⟩, flight]
    exact ⟨State.counter_bump .., rfl, fun c other => State.counter_bump_of_ne _ other⟩

/-! ### Sweeps -/

/-- Settles O13: by the arbiter's order, and by what a completed sweep forms. -/
theorem sweepCompletes : Obligations.SweepCompletes := by
  unfold Obligations.SweepCompletes
  refine ⟨fun c => ⟨fun busy => ?busy, fun free => ⟨fun w flight pending => ?sweep, fun noSweep => ?other⟩⟩, ?done⟩
  case busy =>
    obtain ⟨job, running⟩ := Option.ne_none_iff_exists'.mp busy
    exact Scan.arbitrate_busy running
  case sweep => simp [Scan.arbitrate, free, flight, pending]
  case other =>
    have rest : c.arbitrate = (match c.sampleWait, c.auxWait with
        | some ch, _ => { c with job := some (.sample ch true), jobTime := 0, sampleWait := none }
        | none, some a => { c with job := some (.aux a), jobTime := 0, auxWait := none }
        | none, none => c) := by
      cases flight : c.sweep with
      | none => simp only [Scan.arbitrate, free, flight]; cases c.sampleWait <;> cases c.auxWait <;> rfl
      | some w =>
        have waits := noSweep w flight
        cases sample : c.sampleWait <;> cases aux : c.auxWait <;> simp [Scan.arbitrate, free, flight, sample, aux, waits]
    refine ⟨fun ch sample => ?_, fun a sample aux => ?_, fun sample aux => ?_⟩
    · rw [rest, sample]
    · rw [rest, sample, aux]
    · rw [rest, sample, aux]
  case done =>
    intro l raw curtain s e w he running job flight ran
    have finished : e.scan.jobDone = true := by rw [Scan.jobDone, job]; exact decide_eq_true ran
    have completes : e.completeSweep raw curtain = e.sweepDone w raw curtain := by
      simp [State.completeSweep, job, flight, finished]
    refine exec_running he running rfl rfl (completes.trans ?_)
    have divides : divisor e.station.state = if e.station.state = .joining then 4 else 32 := by
      cases e.station.state <;> rfl
    unfold State.sweepDone State.sweptRow Scan.release rowsOfSweep baselineAfter cellOf curtainBit emitterFault
    rw [divides]
    simp only [Fin.getElem_fin, Vector.getElem_ofFn]

/-! ### Auxiliary ticks and SAMPLE -/

/-- The conversion in progress has run 2 µs (R16). -/
theorem Scan.jobDone_of_short {c : Scan} {j : Job} (job : c.job = some j) (short : j.duration = 2) (ran : 2 ≤ c.jobTime) :
    c.jobDone = true := by
  simpa [Scan.jobDone, job, short] using ran

/-- Settles O14: by the tick's conditions, the taking of a SAMPLE, and its completion, live or not. -/
theorem ticksAndSamples : Obligations.TicksAndSamples := by
  unfold Obligations.TicksAndSamples
  refine ⟨fun l s e he running => ⟨fun due free => ?tick, fun due pending => ?held, fun early => ?early⟩,
    fun t c rest s e he running selected writing args range => ?sample,
    fun l r ch s e he running ran => ⟨fun live => ?live, fun stale => ?stale⟩⟩
  case tick =>
    refine exec_running he running rfl rfl ?_
    rw [State.act, State.auxTick, if_pos (show auxPeriod ≤ e.scan.auxTimer from due), Scan.tick]
    cases e.scan.nextAux <;> simp [free, auxPeriod]
  case held =>
    obtain ⟨a, waits⟩ := Option.ne_none_iff_exists'.mp pending
    refine exec_running he running rfl rfl ?_
    rw [State.act, State.auxTick, if_pos (show auxPeriod ≤ e.scan.auxTimer from due)]
    simp [Scan.tick, waits, auxPeriod]
  case early =>
    refine exec_running he running rfl rfl ?_
    rw [State.act, State.auxTick, if_neg (show ¬auxPeriod ≤ e.scan.auxTimer from Nat.not_le.mpr early)]
  case sample =>
    have number : argNum t.args 0 = c.toNat := by simp [argNum, args]
    refine exec_running he running rfl rfl ?_
    rw [State.act, State.transact_taken running selected writing (by simp [args]) (by simpa [firstBelow, number] using range),
      State.sampleCommand, number]
    rfl
  case live =>
    have finished := Scan.jobDone_of_short live rfl ran
    refine exec_running he running rfl rfl ?_
    simp only [State.act, State.completeSample, live, finished, if_true]
    cases ch <;> rfl
  case stale =>
    have finished := Scan.jobDone_of_short stale rfl ran
    refine exec_running he running rfl rfl ?_
    simp only [State.act, State.completeSample, stale, finished, if_true]
    rfl

/-! ### Auxiliary values -/

/-- A completed auxiliary conversion hands its value on and releases the converter pair (R16, R25). -/
theorem State.completeAux_of_done {e : State} {ch : AuxChannel} (job : e.scan.job = some (.aux ch)) (ran : 2 ≤ e.scan.jobTime)
    (r : Raw) : e.completeAux r = (e.takeAux ch (auxValue r)).releaseConverter := by
  have finished := Scan.jobDone_of_short job rfl ran
  simp only [State.completeAux, job, finished, if_true]

/-- A drop to the budget leaves the scan unit (R105). -/
theorem State.dropToBudget_scan (s : State) : s.dropToBudget.scan = s.scan := by
  obtain ⟨_, _, _, _, work⟩ := (closeExcess_work (s.outlets.openCount - s.budget) s).eq
  rw [State.dropToBudget, work]

/-- Settles O15: by the channel, the validity of the block and whether the band changes. -/
theorem auxiliaryValueTaken : Obligations.AuxiliaryValueTaken := by
  unfold Obligations.AuxiliaryValueTaken
  refine fun l result s e he running ran => ⟨fun valid => ⟨fun job same => ?same, fun job changed d hd => ?changed, fun job => ?coil⟩,
    fun invalid c job => ?invalid⟩
  case same =>
    refine exec_running he running rfl rfl ?_
    rw [State.act, State.completeAux_of_done job ran, State.takeAux, if_pos valid]
    dsimp only [auxValue]
    rw [if_pos same]
    rfl
  case changed =>
    refine ⟨by rw [hd, State.dropToBudget_scan], exec_running he running rfl rfl ?_⟩
    rw [State.act, State.completeAux_of_done job ran, State.takeAux, if_pos valid]
    dsimp only [auxValue]
    rw [if_neg changed, ← hd]
    rfl
  case coil =>
    refine exec_running he running rfl rfl ?_
    rw [State.act, State.completeAux_of_done job ran, State.takeAux, if_pos valid]
    unfold State.releaseConverter Scan.release Scan.takeCoil auxValue
    by_cases toward : decide ((result.toInt + 2048).toNat < e.opts.coilFloor) = e.scan.coilWeak
    · simp [toward]
    · by_cases fourth : 3 ≤ e.scan.coilRun
      · simp [toward, fourth, Nat.not_lt.mpr fourth]
      · simp [toward, fourth, Nat.lt_of_not_le fourth]
  case invalid =>
    refine exec_running he running rfl rfl ?_
    have held : e.takeAux c (auxValue result) = e := if_neg (by rw [invalid]; exact Bool.false_ne_true)
    rw [State.act, State.completeAux_of_done job ran, held]
    rfl


/-! ### The supply band -/

/-- A value whose target is the band in force begins the run again (R27). -/
theorem Scan.takeSupply_of_same {o : Options} {c : Scan} {v : Nat} (same : targetBand o c.band v = c.band) :
    c.takeSupply o v = { c with bandRun := 0 } := by simp [Scan.takeSupply, same]

/-- A value with a target other than the band and than the run's begins a run (R27). -/
theorem Scan.takeSupply_of_new {o : Options} {c : Scan} {v : Nat} {b : Band} (target : targetBand o c.band v = b) (other : b ≠ c.band)
    (new : c.bandRun = 0 ∨ c.candidate ≠ some b) : c.takeSupply o v = { c with candidate := some b, bandRun := 1 } := by
  have notRun : ¬(c.candidate = some b ∧ 1 ≤ c.bandRun) := by
    rintro ⟨candidate, run⟩
    exact new.elim (by omega) fun h => h candidate
  simp [Scan.takeSupply, target, other, notRun]

/-- A value with the run's target goes on with the run, and the fourth changes the band (R27). -/
theorem Scan.takeSupply_of_run {o : Options} {c : Scan} {v : Nat} {b : Band} (target : targetBand o c.band v = b) (other : b ≠ c.band)
    (candidate : c.candidate = some b) (run : 1 ≤ c.bandRun) :
    c.takeSupply o v = if 3 ≤ c.bandRun then { c with band := b, bandRun := 0 } else { c with bandRun := c.bandRun + 1 } := by
  simp [Scan.takeSupply, target, other, candidate, run]

/-- Four values with one target change the band to it, three leave it (R27). -/
theorem Scan.takeSupply_four {o : Options} {c : Scan} {b : Band} {v1 v2 v3 v4 : Nat} (other : b ≠ c.band)
    (new : c.bandRun = 0 ∨ c.candidate ≠ some b) (t1 : targetBand o c.band v1 = b) (t2 : targetBand o c.band v2 = b)
    (t3 : targetBand o c.band v3 = b) (t4 : targetBand o c.band v4 = b) :
    (((c.takeSupply o v1).takeSupply o v2).takeSupply o v3).band = c.band ∧
      ((((c.takeSupply o v1).takeSupply o v2).takeSupply o v3).takeSupply o v4).band = b := by
  have first := Scan.takeSupply_of_new t1 other new
  have second := Scan.takeSupply_of_run (c := { c with candidate := some b, bandRun := 1 }) t2 other rfl (Nat.le_refl 1)
  have third := Scan.takeSupply_of_run (c := { c with candidate := some b, bandRun := 2 }) t3 other rfl (by simp)
  have fourth := Scan.takeSupply_of_run (c := { c with candidate := some b, bandRun := 3 }) t4 other rfl (by simp)
  simp only [Nat.reduceLeDiff, if_false, Nat.reduceAdd, if_true] at second third fourth
  rw [first, second, third, fourth]
  exact ⟨rfl, rfl⟩

/-! ### The drop to the budget (R105) -/

/-- The lane closed next is the latest opened of the OPEN ones, the higher number between equal times (R105). -/
theorem State.lastOpened_latest {s : State} {n : Fin 32} (last : s.lastOpened = some n) :
    let age := fun n : Fin 32 => (s.timeBase - s.outlets.lanes[n].openedAt.getD s.timeBase).toNat
    ∀ m : Fin 32, s.outlets.lanes[m].state = .opened → m ≠ n → age n < age m ∨ (age n = age m ∧ m < n) := by
  dsimp only
  intro m opened ne
  unfold State.lastOpened sinceTime at last
  obtain ⟨before, after, split, beats, unbeaten⟩ := pickBest_splits
    (by simp only [Bool.or_eq_true, Bool.and_eq_true, decide_eq_true_eq]; omega)
    (by simp only [Bool.or_eq_false_iff, Bool.and_eq_false_iff, decide_eq_false_iff_not]; omega) last
  have member : m ∈ before ++ n :: after := split ▸ List.mem_filter.mpr ⟨List.mem_finRange m, by simpa using opened⟩
  rcases List.mem_append.mp member with front | behind
  · simpa using beats m front
  · rcases List.mem_cons.mp behind with same | back
    · exact absurd same ne
    · have not := unbeaten m back
      simp only [Bool.or_eq_false_iff, Bool.and_eq_false_iff, decide_eq_false_iff_not, not_lt] at not
      omega

/-- A window after its lanes of a set have been closed: it loses them and is LANES-TRIMMED (R105). -/
def Window.without (gone : LaneSet) (w : Window) : Window :=
  if w.grant &&& gone = 0 then w
  else { w with grant := w.grant &&& ~~~gone, flags := { w.flags with lanesTrimmed := true } }

/-- A lane set with a lane holds that lane and the set's others. -/
theorem getLsbD_add (gone : LaneSet) (n m : Fin 32) :
    (LaneSet.add gone n).getLsbD m.val = (gone.getLsbD m.val || decide (m = n)) := by
  have := m.isLt
  simp [LaneSet.add, Fin.ext_iff, eq_comm]

/-- Two lane sets share a lane (R105). -/
theorem and_ne_zero_iff (g x : LaneSet) : g &&& x ≠ 0 ↔ ∃ m : Fin 32, g.getLsbD m.val = true ∧ x.getLsbD m.val = true := by
  constructor
  · intro ne
    by_contra none
    refine ne (BitVec.eq_of_getLsbD_eq fun i hi => ?_)
    have apart : ¬(g.getLsbD i = true ∧ x.getLsbD i = true) := fun both => none ⟨⟨i, hi⟩, both⟩
    simpa using apart
  · rintro ⟨m, hg, hx⟩ zero
    have bit : (g &&& x).getLsbD m.val = false := by rw [zero]; exact BitVec.getLsbD_zero
    rw [BitVec.getLsbD_and, hg, hx] at bit
    cases bit

/-- A window that loses lanes keeps the rest of its grant, and is LANES-TRIMMED when it held one of them. -/
theorem Window.without_eq (gone : LaneSet) (w : Window) : w.without gone = { w with
    grant := w.grant &&& ~~~gone
    flags := { w.flags with lanesTrimmed := w.flags.lanesTrimmed || decide (w.grant &&& gone ≠ 0) } } := by
  unfold Window.without
  by_cases none : w.grant &&& gone = 0
  · have same : w.grant &&& ~~~gone = w.grant := by
      refine BitVec.eq_of_getLsbD_eq fun i hi => ?_
      have bit := congrArg (fun v : LaneSet => v.getLsbD i) none
      simp only [BitVec.getLsbD_and] at bit
      simp only [BitVec.getLsbD_and, BitVec.getLsbD_not, hi, decide_true, Bool.true_and]
      cases hg : w.grant.getLsbD i <;> simp_all
    rw [if_pos none, same]
    simp [none]
  · rw [if_neg none, decide_eq_true none, Bool.or_true]

/-- The loss of one lane is that of the set of it alone (R103, R105). -/
theorem loseLane_eq (n : Fin 32) (q : List Window) : loseLane n q = q.map (Window.without (BitVec.twoPow 32 n.val)) := by
  refine List.map_congr_left fun w _ => ?_
  have held : LaneSet.has w.grant n = true ↔ w.grant &&& BitVec.twoPow 32 n.val ≠ 0 := by
    rw [and_ne_zero_iff]
    constructor
    · exact fun has => ⟨n, has, by simp⟩
    · rintro ⟨m, has, same⟩
      have equal : m = n := by simpa [BitVec.getLsbD_twoPow, Fin.ext_iff] using same
      exact equal ▸ has
  unfold Window.without
  by_cases has : LaneSet.has w.grant n = true
  · rw [if_pos has, if_neg (held.mp has)]
    rfl
  · rw [if_neg has, if_pos (not_not.mp fun ne => has (held.mpr ne))]

/-- A window loses one set of lanes after another as it loses them together. -/
theorem Window.without_without (a b : LaneSet) (w : Window) : (w.without a).without b = w.without (a ||| b) := by
  have grants : w.grant &&& ~~~a &&& ~~~b = w.grant &&& ~~~(a ||| b) := by
    refine BitVec.eq_of_getLsbD_eq fun i hi => ?_
    simp only [BitVec.getLsbD_and, BitVec.getLsbD_not, BitVec.getLsbD_or, hi, decide_true, Bool.true_and, Bool.not_or, Bool.and_assoc]
  have lost : w.grant &&& (a ||| b) ≠ 0 ↔ w.grant &&& a ≠ 0 ∨ w.grant &&& ~~~a &&& b ≠ 0 := by
    simp only [and_ne_zero_iff, BitVec.getLsbD_and, BitVec.getLsbD_or, BitVec.getLsbD_not, Fin.is_lt, decide_true, Bool.true_and,
      ← exists_or]
    refine exists_congr fun m => ?_
    cases w.grant.getLsbD m.val <;> cases a.getLsbD m.val <;> cases b.getLsbD m.val <;> simp
  simp only [Window.without_eq, grants, lost, Bool.decide_or, Bool.or_assoc]

/-- What the closing of j excess lanes makes of s, the lanes gone being those of a set (R105). -/
structure Shut (s t : State) (gone : LaneSet) (j : Nat) : Prop where
  opened : ∀ n : Fin 32, gone.getLsbD n.val = true → s.outlets.lanes[n].state = .opened
  lanes : ∀ n : Fin 32, t.outlets.lanes[n] = if gone.getLsbD n.val then .afterReset else s.outlets.lanes[n]
  latest : ∀ n m : Fin 32, gone.getLsbD n.val = true → gone.getLsbD m.val = false → s.outlets.lanes[m].state = .opened →
    let age := fun n : Fin 32 => (s.timeBase - s.outlets.lanes[n].openedAt.getD s.timeBase).toNat
    age n < age m ∨ (age n = age m ∧ m < n)
  closeQ : t.outlets.closeQ = s.outlets.closeQ.map (Window.without gone)
  counted : (t.counter .bandDropClose).toNat = min (2 ^ 32 - 1) ((s.counter .bandDropClose).toNat + j)
  others : ∀ c : Counter, c ≠ .bandDropClose → t.counter c = s.counter c
  openCount : t.outlets.openCount = s.outlets.openCount - j
  frame : t = { s with outlets := { s.outlets with lanes := t.outlets.lanes, closeQ := t.outlets.closeQ }, counters := t.counters }

/-- Nothing closed. -/
theorem Shut.refl (s : State) : Shut s s 0 0 := by
  refine ⟨by simp, by simp, by simp, ?_, ?_, fun _ _ => rfl, rfl, rfl⟩
  · have same : Window.without 0 = id := by funext w; simp [Window.without]
    rw [same, List.map_id]
  · have := (s.counter .bandDropClose).isLt
    omega

/-- A saturating increase of a counter (R178). -/
theorem toNat_saturatingInc (v : BitVec 32) : (saturatingInc v).toNat = min (2 ^ 32 - 1) (v.toNat + 1) := by
  have := v.isLt
  unfold saturatingInc
  split
  · rename_i full
    rw [full]; decide
  · rename_i room
    have below : v.toNat ≠ 2 ^ 32 - 1 := fun h => room (BitVec.eq_of_toNat_eq (by simp [h]))
    have one : (1 : BitVec 32).toNat = 1 := rfl
    rw [BitVec.toNat_add, one]
    omega

/-- The latest opened lane closes after those closed before it (R105). -/
theorem Shut.close {s t : State} {gone : LaneSet} {j : Nat} (h : Shut s t gone j) {n : Fin 32} (last : t.lastOpened = some n) :
    Shut s ((t.takeLane n .afterReset).bump .bandDropClose) (LaneSet.add gone n) (j + 1) := by
  have openedNow := State.lastOpened_opened last
  have still : gone.getLsbD n.val = false := by
    by_contra shut
    rw [h.lanes n, if_pos (Bool.eq_true_of_not_eq_false shut)] at openedNow
    cases openedNow
  have same : ∀ m : Fin 32, gone.getLsbD m.val = false → t.outlets.lanes[m] = s.outlets.lanes[m] := fun m no => by
    rw [h.lanes m, no]; rfl
  have time : t.timeBase = s.timeBase := by rw [h.frame]
  have count := Outlets.openCount_set t.outlets n .afterReset
  have closed : ((t.takeLane n .afterReset).bump .bandDropClose).outlets.openCount =
      Outlets.openCount { t.outlets with lanes := t.outlets.lanes.set n .afterReset } := Outlets.openCount_congr rfl
  refine ⟨fun m shut => ?_, fun m => ?_, fun a b shut open' opened => ?_, ?_, ?_, fun c other => ?_, ?_, ?_⟩
  · rw [getLsbD_add, Bool.or_eq_true, decide_eq_true_eq] at shut
    rcases shut with before | now
    · exact h.opened m before
    · rw [now, ← same n still]; exact openedNow
  · rw [getLsbD_add]
    by_cases now : m = n
    · subst now
      simp [State.takeLane]
    · have apart : n.val ≠ m.val := fun e => now (Fin.ext e.symm)
      have := h.lanes m
      simp only [Fin.getElem_fin] at this
      simp [State.takeLane, apart, this, now]
  · rw [getLsbD_add, Bool.or_eq_false_iff, decide_eq_false_iff_not] at open'
    rw [getLsbD_add, Bool.or_eq_true, decide_eq_true_eq] at shut
    rcases shut with before | now
    · exact h.latest a b before open'.1 opened
    · have latest := State.lastOpened_latest last b (by rw [same b open'.1]; exact opened) open'.2
      dsimp only at latest
      rw [same b open'.1, same n still, time] at latest
      rw [now]
      exact latest
  · show loseLane n t.outlets.closeQ = _
    rw [loseLane_eq, h.closeQ, List.map_map]
    exact List.map_congr_left fun w _ => w.without_without gone _
  · rw [State.counter_bump, toNat_saturatingInc]
    have := h.counted
    simp only [State.counter, State.takeLane] at this ⊢
    omega
  · rw [State.counter_bump_of_ne _ other]; exact h.others c other
  · have closedNow : decide (Lane.afterReset.state = .opened) = false := rfl
    rw [openedNow, ← closed, closedNow] at count
    have before := h.openCount
    simp only [bit, decide_true, Bool.false_eq_true, if_true, if_false] at count
    omega
  · rw [h.frame]
    rfl

/-- Closing k lanes more (R105). -/
theorem Shut.closeExcess {s : State} : ∀ {k j : Nat} {t : State} {gone : LaneSet}, Shut s t gone j → k ≤ t.outlets.openCount →
    ∃ gone', Shut s (closeExcess k t) gone' (j + k)
  | 0, _, _, gone, h, _ => ⟨gone, h⟩
  | k + 1, j, t, gone, h, enough => by
    rw [Machine.closeExcess]
    split
    · rename_i n last
      have closed := h.close last
      have left : k ≤ ((t.takeLane n .afterReset).bump .bandDropClose).outlets.openCount := by
        rw [closed.openCount]
        have := h.openCount
        omega
      obtain ⟨gone', shut⟩ := closed.closeExcess left
      exact ⟨gone', (show j + 1 + k = j + (k + 1) by omega) ▸ shut⟩
    · rename_i none
      rw [State.lastOpened_none.mp none] at enough
      omega

/-- Settles O16: the table of the bands, four values in a row, and the closings of a drop one by one. -/
theorem bandRules : Obligations.BandRules := by
  unfold Obligations.BandRules
  refine ⟨fun o v => ⟨?_, ?_, ?_⟩, fun o c b v1 v2 v3 v4 _ => ⟨fun same => ?_, fun other new t1 t2 t3 t4 => ?_⟩, ?drop⟩
  · unfold targetBand
    dsimp only
    split
    · rfl
    · split <;> simp <;> omega
  · unfold targetBand
    dsimp only
    split
    · rfl
    · split <;> simp <;> omega
  · unfold targetBand
    dsimp only
    split
    · rfl
    · split <;> simp <;> omega
  · rw [Scan.takeSupply_of_same same]; exact ⟨rfl, rfl⟩
  · exact Scan.takeSupply_four other new t1 t2 t3 t4
  case drop =>
    rintro s _ rfl
    obtain ⟨gone, shut⟩ := (Shut.refl s).closeExcess (k := s.outlets.openCount - s.budget) (Nat.sub_le ..)
    rw [Nat.zero_add] at shut
    rw [State.dropToBudget]
    generalize closeExcess (s.outlets.openCount - s.budget) s = t at shut
    have gone_iff : ∀ n : Fin 32, gone.getLsbD n.val = true ↔
        s.outlets.lanes[n].state = .opened ∧ t.outlets.lanes[n].state ≠ .opened := by
      intro n
      have lane := shut.lanes n
      constructor
      · intro gone
        rw [if_pos gone] at lane
        exact ⟨shut.opened n gone, by rw [lane]; simp [Lane.afterReset]⟩
      · rintro ⟨was, is⟩
        by_contra not
        rw [if_neg not] at lane
        exact is (lane ▸ was)
    refine ⟨shut.openCount, fun n => ?_, fun n m hn hm => ?_, ⟨gone, gone_iff, shut.closeQ⟩, ?_, shut.counted, shut.others, ?_⟩
    · by_cases isGone : gone.getLsbD n.val = true
      · exact .inr ⟨(gone_iff n).mp isGone, (shut.lanes n).trans (if_pos isGone)⟩
      · exact .inl ((shut.lanes n).trans (if_neg isGone))
    · have notGone : gone.getLsbD m.val = false :=
        Bool.eq_false_of_not_eq_true fun isGone => ((gone_iff m).mp isGone).2 hm
      refine shut.latest n m ((gone_iff n).mpr hn) notGone ?_
      rw [← hm, shut.lanes m, if_neg (by rw [notGone]; exact Bool.false_ne_true)]
    · rw [shut.frame]
    · rw [shut.frame]

end Sys2Proof.Machine
end

section
/-! PROOFS. The service port: state commands, reads, the tests of R174 and the taking of transactions. -/

namespace Sys2Proof.Machine

/-! ### The taking of a command -/

/-- What a command leaves that a test of R174 answers (R173, R174). -/
def State.answered (e : State) (st : Status) : State :=
  { e with
    port := { e.port with response := some ⟨st, []⟩, deferred := none }
    scan := { e.scan with
      sampleWait := none
      job := match e.scan.job with
        | some (.sample c _) => some (.sample c false)
        | j => j } }

section

variable {e : State} {t : Transaction} {needs : Nat} {ok : List Byte → Bool} {own : State → State}

/-- While the option store is writing a command is BUSY (R180). -/
theorem State.command_busy (writing : e.store.writing.isSome = true) (args : List Byte) :
    e.command needs ok args own = e.answered .busy := by
  rcases e.command_cases needs ok args own with ⟨-, h⟩ | ⟨none, -⟩ | ⟨none, -⟩
  · exact h
  · simp [none] at writing
  · simp [none] at writing

/-- A command with an argument missing or out of range is REFUSED-ARG (R174). -/
theorem State.command_refused (writing : e.store.writing = none) {args : List Byte} (bad : args.length < needs ∨ ok args = false) :
    e.command needs ok args own = e.answered .refusedArg := by
  rcases e.command_cases needs ok args own with ⟨some, -⟩ | ⟨-, -, h⟩ | ⟨-, enough, good, -⟩
  · simp [writing] at some
  · exact h
  · rcases bad with few | range
    · omega
    · simp [good] at range

/-- A transaction of the running part, whole, is a command taken (R172). -/
theorem State.transact_command (running : e.rst.asserted = false) (selected : t.selected ≤ e.rst.sinceEnd) :
    e.transact t needs ok own = e.command needs ok t.args own := by
  have notIgnored : e.ignores t = false := by simp [State.ignores, running, selected]
  simp [State.transact, notIgnored]

end

/-! ### State commands -/

/-- Settles O45: by the station state each command acts in. -/
theorem stateCommandsAnswer : Obligations.StateCommandsAnswer := by
  unfold Obligations.StateCommandsAnswer
  intro t s e he running selected writing
  have taken : ∀ own : State → State, e.transact t 0 anyArgs own = own e.discardResponse := fun own =>
    State.transact_taken running selected writing (Nat.zero_le _) rfl
  refine ⟨fun setup valid => ?_, fun not => ?_, fun runs => ?_, fun not => ?_, fun paused => ?_, fun not => ?_⟩
  · exact exec_running he running rfl rfl ((taken _).trans (if_pos ⟨setup, valid⟩))
  · refine exec_running he running rfl rfl ((taken _).trans (if_neg ?_))
    rintro ⟨setup, valid⟩
    exact not.elim (fun h => h setup) fun h => by cases h.symm.trans valid
  · exact exec_running he running rfl rfl ((taken _).trans (if_pos runs))
  · exact exec_running he running rfl rfl ((taken _).trans (if_neg not))
  · exact exec_running he running rfl rfl ((taken _).trans (if_pos paused))
  · exact exec_running he running rfl rfl ((taken _).trans (if_neg not))

/-! ### Reads -/

/-- Settles O48: both reads act on the state without a response. -/
theorem statusAndCauseReads : Obligations.StatusAndCauseReads := by
  unfold Obligations.StatusAndCauseReads
  intro t s e he running selected writing
  have taken : ∀ own : State → State, e.transact t 0 anyArgs own = own e.discardResponse := fun own =>
    State.transact_taken running selected writing (Nat.zero_le _) rfl
  refine ⟨by simp [State.statusRecord], ?_, rfl, ?_⟩
  · exact exec_running he running rfl rfl ((taken _).trans rfl)
  · exact exec_running he running rfl rfl ((taken _).trans rfl)

/-- A claimant's record leaves its queue whether the response is discarded before or after (R51, R173). -/
theorem State.popRequest_discardResponse (e : State) (c : Claimant) :
    e.discardResponse.popRequest c = (e.popRequest c).discardResponse := by cases c <;> rfl

/-- The readings of an entry answer at once with no request in flight (R177). -/
theorem State.readEntry_of_free {u : State} (free : u.table.inFlight = none) (n : Fin 128) (part : Nat) :
    u.readEntry none n part = u.answer .ok (u.entryPart n part) := by
  simp [State.readEntry, free]

/-- Settles O49: by what each read answers, and by what a READ ENTRY finds in flight. -/
theorem readsAnswer : Obligations.ReadsAnswer := by
  unfold Obligations.ReadsAnswer
  refine ⟨fun t s e he running selected writing => ⟨?options, fun g rest args => ⟨fun slots => ?roster, fun page => ?pages⟩,
    fun n p rest k args number part => ?entry⟩, fun l k p s e he running deferred => ⟨fun free => ?answers, fun flies => ?waits⟩⟩
  case options =>
    exact exec_running he running rfl rfl (State.transact_taken running selected writing (Nat.zero_le _) rfl)
  case roster =>
    have first : argNum t.args 0 = g.toNat := by simp [argNum, args]
    refine exec_running he running rfl rfl ((State.transact_taken running selected writing (by simp [args])
      (by simpa [firstBelow, first] using slots)).trans ?_)
    rw [first]
    rfl
  case pages =>
    have first : argNum t.args 0 = g.toNat := by simp [argNum, args]
    have onPages : firstBelow pages t.args = true := by simpa [firstBelow, first, pages] using page
    refine ⟨exec_running he running rfl rfl ((State.transact_taken running selected writing (by simp [args]) onPages).trans ?_),
      exec_running he running rfl rfl ((State.transact_taken running selected writing (by simp [args]) onPages).trans ?_)⟩
    · rw [first]; rfl
    · rw [first]; rfl
  case entry =>
    have first : argNum t.args 0 = n.toNat := by simp [argNum, args]
    have second : argNum t.args 1 = p.toNat := by simp [argNum, args]
    have slot : Fin.ofNat 128 n.toNat = k := by
      apply Fin.ext
      have := k.isLt
      simp only [Fin.ofNat_eq_cast, Fin.val_natCast]
      omega
    have inRange : (firstBelow 128 t.args && decide (argNum t.args 1 < 2)) = true := by
      have := k.isLt
      rw [firstBelow, first, second]
      simp only [Bool.and_eq_true, decide_eq_true_eq]
      omega
    have taken : ∀ f, e.act (.readEntry t f) = e.discardResponse.readEntry f k p.toNat := fun f => by
      refine (State.transact_taken running selected writing (by simp [args]) inRange).trans ?_
      rw [first, second, slot]
    have reads : ∀ f u, e.discardResponse.readEntry f k p.toNat = u → exec (.readEntry t f) s = .next (handOn e u) :=
      fun f u h => exec_running he running rfl rfl ((taken f).trans h)
    refine ⟨fun free => reads _ _ ?_, fun f flies => reads _ _ ?_, fun c free may => reads _ _ ?_, fun c f g free take => reads _ _ ?_⟩
    · exact State.readEntry_of_free (u := e.discardResponse) free k p.toNat
    · obtain ⟨x, flight⟩ := Option.ne_none_iff_exists'.mp flies
      have flight' : e.discardResponse.table.inFlight = some x := flight
      cases f <;> simp only [State.readEntry, flight', Option.isNone_some, Option.isSome_some, Bool.false_eq_true, if_false, if_true] <;> rfl
    · have may' : e.discardResponse.mayTake c = false := may
      have free' : e.discardResponse.table.inFlight = none := free
      simp only [State.readEntry, State.startRequest, free', may', Option.isNone_none, Option.isSome_none, Bool.false_eq_true, if_false,
        if_true]
      rfl
    · obtain ⟨-, ⟨flies, -⟩ | ⟨-, may, front, bare, popped⟩⟩ := State.takeRequest_cases take
      · simp [free] at flies
      · have may' : e.discardResponse.mayTake c = true := may
        have front' : e.discardResponse.frontRequest c = some f.request := front
        have free' : e.discardResponse.table.inFlight = none := free
        simp only [State.readEntry, State.startRequest, free', may', front', Option.isNone_none, if_true,
          State.popRequest_discardResponse, State.setFlight, Option.isSome_some]
        rw [popped]
        rfl
  case answers =>
    refine exec_running he running rfl rfl ?_
    simp only [State.act, State.answerDeferred, deferred, free]
    rfl
  case waits =>
    obtain ⟨f, flight⟩ := Option.ne_none_iff_exists'.mp flies
    refine exec_running he running rfl rfl ?_
    simp only [State.act, State.answerDeferred, deferred, flight]

/-! ### The tests of R174 -/

/-- A code that is none of section 11.2's is unknown (R174). -/
theorem unknownCode_of {code : Byte} (low : ¬(1 ≤ code.toNat ∧ code.toNat ≤ 8)) (high : ¬(16 ≤ code.toNat ∧ code.toNat ≤ 19))
    (fetch : code ≠ 0) (sample : code ≠ 0x20) (testLane : code ≠ 0x21) : unknownCode code = true := by
  have apart : ∀ x : Byte, (1 ≤ x.toNat ∧ x.toNat ≤ 8) ∨ (16 ≤ x.toNat ∧ x.toNat ≤ 19) ∨ x = 0x20 ∨ x = 0x21 → code ≠ x := by
    rintro x known rfl
    exact known.elim low fun known => known.elim high fun known => known.elim sample testLane
  simp only [unknownCode, commandCodes, List.contains_cons, List.contains_nil, Bool.or_false, Bool.and_eq_true, decide_eq_true_eq,
    Bool.not_eq_true', Bool.or_eq_false_iff, beq_eq_false_iff_ne]
  exact ⟨fetch, apart _ (by decide), apart _ (by decide), apart _ (by decide), apart _ (by decide), apart _ (by decide),
    apart _ (by decide), apart _ (by decide), apart _ (by decide), apart _ (by decide), apart _ (by decide), apart _ (by decide),
    apart _ (by decide), apart _ (by decide), apart _ (by decide)⟩

/-- The bits of a byte as SDI carries them, most significant first (R172). -/
def sdiBits (b : Byte) : List Bool := (List.range 8).map fun i => b.getLsbD (7 - i)

/-- Eight bits, most significant first, read as the byte they are of (R172). -/
theorem byte_of_sdiBits (b : Byte) : BitVec.ofNat 8 ((sdiBits b).foldl (fun n x => 2 * n + bit x) 0) = b := by
  revert b
  decide

/-- The whole bytes of a transaction's bits are the bytes sent; bits after the last are discarded (R172). -/
theorem wholeBytes_sdi (extra : List Bool) (short : extra.length < 8) :
    ∀ bytes : List Byte, wholeBytes (bytes.flatMap sdiBits ++ extra) = bytes
  | [] => by
    rw [List.flatMap_nil, List.nil_append]
    unfold wholeBytes
    split
    · simp at short; omega
    · rfl
  | b :: bytes => by
    have head : sdiBits b = [b.getLsbD 7, b.getLsbD 6, b.getLsbD 5, b.getLsbD 4, b.getLsbD 3, b.getLsbD 2, b.getLsbD 1,
      b.getLsbD 0] := rfl
    have byte := byte_of_sdiBits b
    rw [head] at byte
    rw [List.flatMap_cons, List.append_assoc, head]
    simp only [List.cons_append, List.nil_append]
    rw [wholeBytes, byte, wholeBytes_sdi extra short bytes]

/-- Settles O50: by the tests of R174, and by reading a transaction's bits back into bytes. -/
theorem portTestsAnswer : Obligations.PortTestsAnswer := by
  unfold Obligations.PortTestsAnswer
  refine ⟨fun t code s e he running selected low high fetch notSample notTest => ?tests,
    fun l selected bytes args code extra f sdi t short ht bits => ?transactions⟩
  case tests =>
    have unknown := unknownCode_of low high fetch notSample notTest
    have notIgnored : e.ignores t = false := by simp [State.ignores, running, selected]
    have transacts : ∀ needs ok own, e.transact t needs ok own = e.command needs ok t.args own := fun needs ok own =>
      State.transact_command running selected
    have unknowns : e.act (.unknownCommandCode t code) = e.command 0 (fun _ => false) t.args id := by
      simp [State.act, notIgnored, unknown]
    refine ⟨fun writes c member => ?busy, fun writes f => ?busyEntry, fun idle => ⟨?unknown, fun few => ?options, fun few f => ?fewEntry,
      fun n p rest f args out => ?outEntry, fun none c member => ?missing, fun n rest args => ⟨fun out => ?roster,
      fun out c member => ?pages, fun out => ?sample⟩⟩⟩
    case busy =>
      have busy : ∀ needs ok own, e.transact t needs ok own = e.answered .busy := fun needs ok own =>
        (transacts needs ok own).trans (State.command_busy writes _)
      have acts : c.actsInReset = false ∧ e.resets c = false ∧ c.lapse = t.lapse ∧ e.act c = e.answered .busy := by
        simp only [List.mem_cons, List.not_mem_nil, or_false] at member
        rcases member with rfl | rfl | rfl | rfl | rfl | rfl | rfl | rfl | rfl | rfl | rfl | rfl | rfl | rfl
        case inr.inr.inr.inr.inr.inr.inr.inr.inr.inr.inl => exact ⟨rfl, by simp [State.resets, writes], rfl, busy ..⟩
        case inr.inr.inr.inr.inr.inr.inr.inr.inr.inr.inr.inr.inr =>
          exact ⟨rfl, rfl, rfl, unknowns.trans (State.command_busy writes _)⟩
        all_goals exact ⟨rfl, rfl, rfl, busy ..⟩
      obtain ⟨other, keeps, lapse, act⟩ := acts
      exact exec_running (lapse ▸ he) running other keeps act
    case busyEntry => exact exec_running he running rfl rfl ((transacts ..).trans (State.command_busy writes _))
    case unknown => exact exec_running he running rfl rfl (unknowns.trans (State.command_refused idle (.inr rfl)))
    case options => exact exec_running he running rfl rfl ((transacts ..).trans (State.command_refused idle (.inl few)))
    case fewEntry => exact exec_running he running rfl rfl ((transacts ..).trans (State.command_refused idle (.inl few)))
    case outEntry =>
      refine exec_running he running rfl rfl ((transacts ..).trans (State.command_refused idle (.inr ?_)))
      simp only [firstBelow, argNum, args, List.getD_cons_zero, List.getD_cons_succ, Bool.and_eq_false_iff, decide_eq_false_iff_not]
      omega
    case missing =>
      have refused : ∀ needs ok own, 0 < needs → e.transact t needs ok own = e.answered .refusedArg := fun needs ok own some =>
        (transacts needs ok own).trans (State.command_refused idle (.inl (by simpa [none] using some)))
      have acts : c.actsInReset = false ∧ e.resets c = false ∧ c.lapse = t.lapse ∧ e.act c = e.answered .refusedArg := by
        simp only [List.mem_cons, List.not_mem_nil, or_false] at member
        rcases member with rfl | rfl | rfl | rfl | rfl
        all_goals exact ⟨rfl, rfl, rfl, refused _ _ _ Nat.one_pos⟩
      obtain ⟨other, keeps, lapse, act⟩ := acts
      exact exec_running (lapse ▸ he) running other keeps act
    case roster =>
      refine exec_running he running rfl rfl ((transacts ..).trans (State.command_refused idle (.inr ?_)))
      simpa [firstBelow, argNum, args] using out
    case pages =>
      have refused : ∀ own, e.transact t 1 (firstBelow pages) own = e.answered .refusedArg := fun own =>
        (transacts ..).trans (State.command_refused idle (.inr (by simpa [firstBelow, argNum, args, pages] using out)))
      simp only [List.mem_cons, List.not_mem_nil, or_false] at member
      rcases member with rfl | rfl
      · exact exec_running he running rfl rfl (refused _)
      · exact exec_running he running rfl rfl (refused _)
    case sample =>
      refine exec_running he running rfl rfl ((transacts ..).trans (State.command_refused idle (.inr ?_)))
      simpa [firstBelow, argNum, args] using out
  case transactions =>
    have read : wholeBytes sdi = bytes := by rw [bits]; exact wholeBytes_sdi extra short bytes
    have command : ∀ code', bytes = code' :: args → transactionCommand l selected sdi f = commandOf code' t f := by
      rintro code' rfl
      rw [transactionCommand, read, ht]
    refine ⟨fun none => ?_, fun fetch => ?_, fun x member known => ?_, fun unknown low high notFetch notSample notTest => ?_,
      fun s => ⟨fun none => ?_, fun c some => ?_⟩⟩
    · rw [transactionCommand, read, none]
    · rw [command 0 fetch]; rfl
    · rw [command x.1 known]
      simp only [List.mem_cons, List.not_mem_nil, or_false] at member
      rcases member with rfl | rfl | rfl | rfl | rfl | rfl | rfl | rfl | rfl | rfl | rfl | rfl | rfl | rfl
      all_goals rfl
    · rw [command code unknown]
      have fetchCode : code.toNat ≠ 0 := fun eq => notFetch (BitVec.eq_of_toNat_eq eq)
      have sampleCode : code.toNat ≠ 32 := fun eq => notSample (BitVec.eq_of_toNat_eq eq)
      have testCode : code.toNat ≠ 33 := fun eq => notTest (BitVec.eq_of_toNat_eq eq)
      unfold commandOf
      split
      case h_16 => rfl
      all_goals omega
    · rw [State.sendTransaction, none]
    · rw [State.sendTransaction, some]

end Sys2Proof.Machine
end

section
/-! PROOFS. The option block, the option write and the reset logic. -/

namespace Sys2Proof.Machine

/-! ### The option block -/

/-- A byte of the block read from its list of bytes. -/
theorem opt8_eq (b : Vector Byte 48) (k : Fin 48) : opt8 b k = (b.toList.getD k.val 0).toNat := by
  have := k.isLt
  simp [opt8, List.getD]

/-- A signed byte between -3 and 3. -/
theorem toInt_small_iff (x : Byte) : (-3 ≤ x.toInt ∧ x.toInt ≤ 3) ↔ (x.toNat ≤ 3 ∨ 253 ≤ x.toNat) := by
  have := x.isLt
  rw [BitVec.toInt_eq_toNat_cond]
  split <;> omega

/-- Settles O51: by the tests of the block field by field, and by the cases of WRITE OPTIONS and of its completion. -/
theorem optionWriteActs : Obligations.OptionWriteActs := by
  unfold Obligations.OptionWriteActs
  refine ⟨fun b => ⟨?range, ?order⟩, fun args k enough below => ?block, fun t s e he running selected writing enough =>
    ⟨fun not => ?state, fun setup bad => ?arg, fun setup good => ?ok⟩, fun l s e he => ⟨fun new writes => ?completes, fun idle => ?idle⟩⟩
  case range =>
    obtain ⟨u8, byte⟩ : ∃ u8 : Nat → Nat, ∀ k, (b.toList.getD k 0).toNat = u8 k := ⟨_, fun _ => rfl⟩
    have signed := toInt_small_iff b[11]
    rw [show b[11].toNat = u8 11 from (opt8_eq b 11).trans (byte 11)] at signed
    simp only [blockInRange, opt16, opt8_eq, byte, Bool.and_eq_true, Bool.or_eq_true, decide_eq_true_eq, List.forall_mem_cons,
      List.not_mem_nil, false_imp_iff, implies_true, Fin.reduceAdd, Fin.coe_ofNat_eq_mod, Nat.reduceMod, Nat.reduceAdd, and_true]
    omega
  case order =>
    simp only [blockOrdered, opt16, opt8_eq, Bool.and_eq_true, decide_eq_true_eq, Fin.reduceAdd, Fin.coe_ofNat_eq_mod, Nat.reduceMod,
      Nat.reduceAdd, and_assoc]
  case block =>
    have inside : k < 48 := by omega
    rw [List.getD_eq_getElem _ _ (by simpa using inside), Vector.getElem_toList, blockOf, Vector.getElem_push_lt below, blockArgs,
      Vector.getElem_ofFn]
  case state =>
    exact exec_running he running rfl rfl ((State.transact_taken running selected writing enough rfl).trans (if_pos not))
  case arg =>
    refine exec_running he running rfl rfl ((State.transact_taken running selected writing enough rfl).trans ?_)
    exact (if_neg (not_not.mpr setup)).trans (if_neg (by rw [bad]; exact Bool.false_ne_true))
  case ok =>
    refine exec_running he running rfl rfl ((State.transact_taken running selected writing enough rfl).trans ?_)
    exact (if_neg (not_not.mpr setup)).trans (if_pos good)
  case completes =>
    have completed : exec (.optionWriteCompleted l) s = .next e.writeCompleted := by rw [he]; rfl
    have begins : e.writeCompleted = State.assertReset { e with store := Store.complete new }
        { e.rst.causes with config := true } e.rst.supplyLow e.rst.pinLow := by rw [State.writeCompleted, writes]
    exact ⟨_, completed.trans (congrArg _ begins), rfl, rfl, rfl⟩
  case idle =>
    have completed : exec (.optionWriteCompleted l) s = .next e.writeCompleted := by rw [he]; rfl
    rw [completed, State.writeCompleted, idle]

/-! ### Resets -/

/-- What the beginning of a reset leaves in the store (R180, log 11). -/
theorem Store.abandon_spec (st : Store) (n : Nat) :
    (st.abandon n).mark = st.mark ∧ (st.abandon n).writing = none ∧ (st.writing = none → (st.abandon n).bytes = st.bytes) ∧
      ∀ new : Vector Byte 47, st.writing = some new → ∃ k : Nat, ∀ i : Fin 48,
        (st.abandon n).bytes[i] = if i.val < k then (new.push (crc8 new.toList))[i] else st.bytes[i] := by
  cases writing : st.writing with
  | none => simp [Store.abandon, writing]
  | some new =>
    refine ⟨by simp [Store.abandon, writing], by simp [Store.abandon, writing], nofun, fun new' same => ⟨n, fun i => ?_⟩⟩
    cases same
    simp [Store.abandon, writing, partlyWritten, blockOf]

/-- Settles O52: every source begins its reset in the one way, with its own cause and sources. -/
theorem resetSourcesAct : Obligations.ResetSourcesAct := by
  unfold Obligations.ResetSourcesAct
  refine ⟨fun l t s e he ht => ?begins, fun l s e he => ⟨fun low => ?supply, fun low => ?pin⟩⟩
  case begins =>
    have pending : e.pending = s.pending := by rw [he]; exact s.elapse_pending l
    obtain ⟨mark, idle, same, abandoned⟩ := e.store.abandon_spec (Config.bytesWritten e.draws)
    have begun : ∀ (c : Instr) (causes : Causes) (supplyLow pinLow : Bool),
        exec c s = .next (e.assertReset causes supplyLow pinLow) → ∃ u, exec c s = .next u ∧
        u.pending = s.pending ∧ u.rst = ⟨causes, true, supplyLow, pinLow, 0, 0⟩ ∧
        u.store.mark = e.store.mark ∧ u.store.writing = none ∧
        (e.store.writing = none → u.store.bytes = e.store.bytes) ∧
        (∀ new : Vector Byte 47, e.store.writing = some new → ∃ k : Nat, ∀ i : Fin 48,
          u.store.bytes[i] = if i.val < k then (new.push (crc8 new.toList))[i] else e.store.bytes[i]) ∧
        u.port = ⟨none, none, ⟨false, false, false, false, false⟩⟩ ∧ u.outlets = .afterReset ∧ u.belt.count = 0 ∧
        u.table = .afterReset ∧ u.rxQueue = [] ∧ u.link.queue = [] ∧ u.counters = Vector.replicate 78 0 :=
      fun c causes supplyLow pinLow runs =>
        ⟨_, runs, pending, rfl, mark, idle, same, abandoned, rfl, rfl, rfl, rfl, rfl, rfl, rfl⟩
    refine ⟨begun _ _ _ _ (by rw [he]; rfl), begun _ _ _ _ (by rw [he]; rfl), begun _ _ _ _ (by rw [he]; rfl),
      fun idle running selected => begun _ _ _ _ ?_⟩
    have resets : (s.elapse (Instr.reset t).lapse).resets (.reset t) = true := by
      rw [show (Instr.reset t).lapse = l from ht, ← he]
      simp [State.resets, State.ignores, running, selected, idle]
    rw [exec_of_resets resets, show (Instr.reset t).lapse = l from ht, ← he]
    rfl
  case supply =>
    have rises : exec (.supplyRise l) s = .next { e with rst := e.rst.supplyRise } := by rw [he]; rfl
    rw [rises, Rst.supplyRise, if_pos low]
  case pin =>
    have rises : exec (.resetPinHigh l) s = .next { e with rst := e.rst.pinHigh } := by rw [he]; rfl
    rw [rises, Rst.pinHigh, if_pos low]

/-! ### The end of a reset -/

/-- The option block check as the statements write it (R179). -/
theorem crc8_eq (bs : List Byte) : crc8 bs = bs.foldl (fun (reg : BitVec 8) x => (List.range 8).foldl (fun reg i =>
    (reg <<< 1) ^^^ (if (reg.getLsbD 7) != x.getLsbD (7 - i) then 0x1D else 0)) reg) 0xFF := by
  have bit : ∀ (r : BitVec 8) (d : Bool), crc8Bit r d = (r <<< 1) ^^^ (if (r.getLsbD 7) != d then 0x1D else 0) := fun r d => by
    unfold crc8Bit
    split <;> simp
  have range : List.range 8 = [0, 1, 2, 3, 4, 5, 6, 7] := rfl
  unfold crc8
  simp only [bit, range, List.foldl_cons, List.foldl_nil, Nat.reduceSub]

/-- The options of a block within its ranges, by the layout of section 11.7 (R179). -/
theorem Options.ofBlock_layout {b : Vector Byte 48} (inRange : blockInRange b = true) :
    let u8 := fun k : Nat => (b.toList.getD k 0).toNat
    let u16 := fun k : Nat => 256 * u8 k + u8 (k + 1)
    Options.ofBlock b =
      { s := u16 0, kind := if u8 2 / 64 = 1 then .lanes else if u8 2 / 64 = 2 then .gate else .nothing
        scan := decide (u8 2 / 32 % 2 = 1), o := u16 3, d := u16 5, pre := u8 7, post := u8 8, wMax := u16 9
        laneOffset := if u8 11 < 128 then (u8 11 : Int) else (u8 11 : Int) - 256, laneMargin := u8 12, peerWiden := u8 13
        r := u8 14, p := u8 15, stepCode := u8 16, eject := BitVec.ofNat 6 (u8 17), fallback := BitVec.ofNat 6 (u8 18)
        passive := BitVec.ofNat 6 (u8 19), cover := if u8 20 = 255 then none else some (Fin.ofNat 16 (u8 20))
        areaMin := u16 21, areaMax := u16 23, tMetal := u16 25, tCell := u16 27, coilFloor := u16 29, faultFall := u16 31
        faultRise := u16 33, lowFall := u16 35, lowRise := u16 37, bLow := u8 39, bNormal := u8 40, tOnMax := u8 41
        listen := u16 42, hb := u8 44, hd := u8 45, rate := u8 46 } := by
  dsimp only
  obtain ⟨u8, byte⟩ : ∃ u8 : Nat → Nat, ∀ k, (b.toList.getD k 0).toNat = u8 k := ⟨_, fun _ => rfl⟩
  have at' : ∀ k : Fin 48, b[k].toNat = u8 k.val := fun k => (opt8_eq b k).trans (byte _)
  have kinds : u8 2 / 64 ≤ 2 ∧ (u8 20 ≤ 15 ∨ u8 20 = 255) := by
    simp only [blockInRange, opt8_eq, byte, Bool.and_eq_true, Bool.or_eq_true, decide_eq_true_eq, Fin.coe_ofNat_eq_mod, Nat.reduceMod]
      at inRange
    omega
  have kind : (OutletKind.ofCode (u8 2 / 64)).getD .nothing =
      if u8 2 / 64 = 1 then .lanes else if u8 2 / 64 = 2 then .gate else .nothing := by
    have cases : u8 2 / 64 = 0 ∨ u8 2 / 64 = 1 ∨ u8 2 / 64 = 2 := by omega
    rcases cases with h | h | h <;> rw [h] <;> rfl
  have scan : b[2].getLsbD 5 = decide (u8 2 / 32 % 2 = 1) := by
    rw [show u8 2 = b[2].toNat from (at' 2).symm]
    exact Nat.testBit_eq_decide_div_mod_eq
  have offset : b[11].toInt = if u8 11 < 128 then (u8 11 : Int) else (u8 11 : Int) - 256 := by
    rw [show u8 11 = b[11].toNat from (at' 11).symm, BitVec.toInt_eq_toNat_cond]

    show (if 2 * b[11].toNat < 2 ^ 8 then _ else _) = if b[11].toNat < 128 then _ else _
    split <;> split <;> omega
  have mask : ∀ k : Fin 48, b[k].setWidth 6 = BitVec.ofNat 6 (u8 k.val) := fun k => by
    rw [← at' k]
    exact BitVec.eq_of_toNat_eq (by simp)
  have cover : (if h : u8 20 < 16 then some (⟨u8 20, h⟩ : Fin 16) else none) =
      if u8 20 = 255 then none else some (Fin.ofNat 16 (u8 20)) := by
    rcases kinds.2 with station | none
    · have below : u8 20 < 16 := by omega
      have not : u8 20 ≠ 255 := by omega
      simp only [below, not, dif_pos, if_false, Option.some.injEq, Fin.ext_iff, Fin.ofNat_eq_cast, Fin.val_natCast]
      omega
    · simp [none]
  have masks : b[17].setWidth 6 = BitVec.ofNat 6 (u8 17) ∧ b[18].setWidth 6 = BitVec.ofNat 6 (u8 18) ∧
      b[19].setWidth 6 = BitVec.ofNat 6 (u8 19) := ⟨mask 17, mask 18, mask 19⟩
  obtain ⟨eject, fallback, passive⟩ := masks
  unfold Options.ofBlock
  simp only [opt16, opt8_eq, byte, Fin.reduceAdd, Fin.coe_ofNat_eq_mod, Nat.reduceMod, Nat.reduceAdd, kind, scan, offset, eject,
    fallback, passive, cover]

/-- Settles O53: by the tests of a valid block, its fields by the layout, and the values at the end of a reset. -/
theorem resetEndsInFirstState : Obligations.ResetEndsInFirstState := by
  unfold Obligations.ResetEndsInFirstState
  refine ⟨fun st => ?valid, fun b inRange => Options.ofBlock_layout inRange, by decide, fun l pins s e he => ?ends⟩
  case valid =>
    dsimp only
    rw [← crc8_eq]
    simp [Store.valid, and_assoc]
  case ends =>
    have runs : exec (.resetEnd l pins) s = .next (e.endReset pins) := by rw [he]; rfl
    have pending : e.pending = s.pending := by rw [he]; exact s.elapse_pending l
    rw [runs]
    refine ⟨fun early => ?_, fun asserted supply pin ran => ?_⟩
    · have not : e.rst.mayEnd = false := by
        rcases early with h | h | h | h
        · simp [Rst.mayEnd, h]
        · simp [Rst.mayEnd, Rst.acting, h]
        · simp [Rst.mayEnd, Rst.acting, h]
        · simp [Rst.mayEnd, startInterval, Nat.not_le.mpr h]
      simp [State.endReset, not]
    · have may : e.rst.mayEnd = true := by simp [Rst.mayEnd, Rst.acting, startInterval, asserted, supply, pin, ran]
      have first : firstState pins.setupHigh e.store.valid =
          if pins.setupHigh = true ∧ e.store.valid = true then .joining else .setup := by
        simp [firstState]
      refine ⟨e.afterReset pins, by simp [State.endReset, may], rfl, rfl, pending, rfl, rfl, rfl, rfl, first, ?_, rfl, rfl, fun n => ?_,
        rfl, rfl, rfl, rfl, rfl, rfl, fun i => ?_, rfl, rfl, rfl, ?_, rfl, rfl, fun n => ?_, rfl, rfl, rfl, rfl⟩
      · simp [State.afterReset, Station.afterReset, first]
      · simp [State.afterReset, Station.afterReset, Station.rosterAfterReset]
      · simp [State.afterReset, State.reset, Table.afterReset]
      · simp [State.earliest, State.deadlines, State.afterReset, State.reset, Table.afterReset]
      · simp [State.afterReset, State.reset, Outlets.afterReset, Lane.afterReset]

end Sys2Proof.Machine
end

section
/-! PROOFS. The pins and the response layouts. -/

namespace Sys2Proof.Machine

/-! ### Pins -/

/-- Bit j of byte k of bytes that follow one another on the line (R128). -/
theorem getD_flatMap_lineBits : ∀ (bs : List Byte) (k : Nat) (b : Byte) (j : Nat), bs[k]? = some b → j < 10 →
    (bs.flatMap lineBits).getD (10 * k + j) true = (lineBits b).getD j true
  | [], k, b, j, h, _ => by simp at h
  | x :: xs, 0, b, j, h, hj => by
    have same : x = b := by simpa using h
    subst same
    rw [List.flatMap_cons, Nat.mul_zero, Nat.zero_add, List.getD_append _ _ _ _ (by simpa [lineBits] using hj)]
  | x :: xs, k + 1, b, j, h, hj => by
    have length : (lineBits x).length = 10 := rfl
    rw [List.flatMap_cons, List.getD_append_right _ _ _ _ (by omega), length, show 10 * (k + 1) + j - 10 = 10 * k + j by omega]
    exact getD_flatMap_lineBits xs k b j (by simpa using h) hj

/-- Data bit j of a byte on the line, the most significant first (R128). -/
theorem lineBits_data (b : Byte) (j : Fin 8) : (lineBits b).getD (1 + j.val) true = b.getLsbD (7 - j.val) := by
  fin_cases j <;> rfl

/-- What LB_TX carries of a byte of the frame of an attempt (R128, R133). -/
theorem State.lbTx_of_frame {s : State} (running : s.rst.asserted = false) {f : TxFrame}
    (attempt : s.link.state = .arbitrating ∨ s.link.state = .sending) (frame : s.link.frame = some f) {k : Nat} {b : Byte}
    (byte : f.bytes[k]? = some b) {j : Nat} (hj : j < 10) :
    s.lbTx (10 * k + j) = if (lineBits b).getD j true then .recessive else .dominant := by
  have read : f.bits.getD (10 * k + j) true = (lineBits b).getD j true := getD_flatMap_lineBits f.bytes k b j byte hj
  rcases attempt with h | h <;> simp only [State.lbTx, running, h, frame, read] <;> rfl

/-- An attention set without a reason is the empty one. -/
theorem Attention.any_iff (a : Attention) : a.any = true ↔ a ≠ ⟨false, false, false, false, false⟩ := by
  obtain ⟨a, b, c, d, e⟩ := a
  revert a b c d e
  decide

/-- Cause flags without a flag are the clear ones. -/
theorem Causes.any_iff (a : Causes) : a.any = true ↔ a ≠ ⟨false, false, false, false, false⟩ := by
  obtain ⟨a, b, c, d, e⟩ := a
  revert a b c d e
  decide

/-- A byte goes out bit by bit, most significant first (R172). -/
theorem State.sdoBit_eq (s : State) (high : Bool) (k : Nat) (i : Fin 8) :
    s.sdoBit high (8 * k + i.val) = (s.sdo high k).map fun b => b.getLsbD (7 - i.val) := by
  have := i.isLt
  rw [State.sdoBit, show (8 * k + i.val) / 8 = k by omega, show (8 * k + i.val) % 8 = i.val by omega]

/-- Settles O46: pin by pin, in reset and out of it. -/
theorem pinsShowState : Obligations.PinsShowState := by
  unfold Obligations.PinsShowState
  refine fun s => ⟨fun asserted => ?reset, fun running => ?running⟩
  case reset =>
    simp [State.outPin, State.gateDiv, State.rotorOk, State.ready, State.alert, State.lbTx, State.curtainLines, State.sdo,
      State.sdoBit, asserted]
  case running =>
    refine ⟨fun n => by simp [State.outPin, running], ?gate, by simp [State.rotorOk, running, and_assoc], ?ready, ?alert,
      fun k quiet => ?quiet, fun k breaks => ?breaks, fun f attempt frame k b byte => ?frame, fun job early => ?clock, fun rest => ?rest,
      fun k => by simp [State.sdo], fun high k i => ?bits, fun none => ?none, fun r response => ?response⟩
    case gate =>
      have commanded : s.gate.state.commanded = true ↔ s.gate.state = .movingOut ∨ s.gate.state = .divert := by
        cases s.gate.state <;> simp [GateState.commanded]
      simp [State.gateDiv, running, commanded]
    case ready => simp [State.ready, running, Option.isSome_iff_ne_none]
    case alert => simp only [State.alert, running, Bool.not_false, Bool.true_and, Bool.or_eq_true, Attention.any_iff, Causes.any_iff]
    case quiet => rcases quiet with h | h | h <;> simp [State.lbTx, running, h]
    case breaks => simp [State.lbTx, running, breaks]
    case frame =>
      have carried := fun j hj => State.lbTx_of_frame running attempt frame byte (j := j) hj
      refine ⟨carried 0 (by decide), carried 9 (by decide), fun j => ?_⟩
      rw [Nat.add_assoc, carried (1 + j.val) (by omega), lineBits_data]
    case clock => simp [State.curtainLines, running, job, curtainClocks, early]
    case rest =>
      have not : ¬(s.scan.job = some .sweep ∧ s.scan.jobTime < curtainClocks) := by
        rintro ⟨job, early⟩
        exact rest.elim (fun h => h job) fun late => absurd early (Nat.not_lt.mpr late)
      rw [State.curtainLines, if_neg (by simp [running]), if_neg not]
    case bits =>
      rw [s.sdoBit_eq]
      exact ⟨fun h => by rw [h]; rfl, fun b h => by rw [h]; rfl⟩
    case none =>
      refine ⟨by simp [State.sdo, State.stream, running, none, Status.code], fun k => ?_⟩
      cases k <;> simp [State.sdo, State.stream, running, none]
    case response =>
      refine ⟨?_, by simp [State.sdo, State.stream, running, response], fun k b byte => ?_, fun k past => ?_⟩
      · cases status : r.status <;> simp [State.sdo, State.stream, running, response, status, Status.code]
      · simp [State.sdo, State.stream, running, response, byte]
      · simp [State.sdo, State.stream, running, response, past]

/-! ### Response layouts -/

/-- A flag as the statements write it, with its weight. -/
theorem flag_eq (b : Bool) (w : Nat) : (if b = true then w else 0) = w * bit b := by cases b <;> simp [bit]

/-- Two bytes of a number. -/
theorem two_eq (v : Nat) : bytesOf 2 v = [BitVec.ofNat 8 (v / 256), BitVec.ofNat 8 v] := by simp [bytesOf]

/-- Three bytes of a number. -/
theorem three_eq (v : Nat) : bytesOf 3 v = [BitVec.ofNat 8 (v / 65536), BitVec.ofNat 8 (v / 256), BitVec.ofNat 8 v] := by
  simp [bytesOf]

/-- Four bytes of a number. -/
theorem four_eq (v : Nat) : bytesOf 4 v =
    [BitVec.ofNat 8 (v / 16777216), BitVec.ofNat 8 (v / 65536), BitVec.ofNat 8 (v / 256), BitVec.ofNat 8 v] := by
  simp [bytesOf]

/-- Four bytes of a signed number, in two's complement. -/
theorem signed_eq (v : Int) : signedBytes 4 v =
    [BitVec.ofNat 8 ((v % 4294967296).toNat / 16777216), BitVec.ofNat 8 ((v % 4294967296).toNat / 65536),
      BitVec.ofNat 8 ((v % 4294967296).toNat / 256), BitVec.ofNat 8 (v % 4294967296).toNat] := by
  rw [signedBytes, four_eq, BitVec.toNat_ofInt]
  rfl

/-- Two lists joined, part by part. -/
theorem append_congr {a b c d : List Byte} (first : a = c) (second : b = d) : a ++ b = c ++ d := by rw [first, second]

/-- A page of counters, from the counters that stand on it in order (R178). -/
theorem State.pageBytes_of (s : State) {g : Nat} {cs : List Counter}
    (places : (List.finRange 78).filter (onPage g) = cs.map Counter.index) :
    s.pageBytes g = cs.flatMap fun c => [BitVec.ofNat 8 ((s.counter c).toNat / 16777216),
      BitVec.ofNat 8 ((s.counter c).toNat / 65536), BitVec.ofNat 8 ((s.counter c).toNat / 256), BitVec.ofNat 8 (s.counter c).toNat] := by
  simp only [← four_eq]
  rw [State.pageBytes, places, List.flatMap_map]
  rfl

/-- A group of roster slots, from its four slots (R177). -/
theorem State.rosterGroup_of (s : State) {g : Nat} {a b c d : Fin 16}
    (places : (List.finRange 16).filter (fun n => decide (n.val / 4 = g)) = [a, b, c, d]) :
    s.rosterGroup g = s.station.roster[a].bytes ++ s.station.roster[b].bytes ++ s.station.roster[c].bytes ++
      s.station.roster[d].bytes := by
  rw [State.rosterGroup, places]
  simp

/-- The payload of a HELLO, its numbers in bytes and its flags by their weights (section 9.2). -/
theorem helloPayload_eq (h : HelloFields) : helloPayload h =
    [BitVec.ofNat 8 (h.s / 256), BitVec.ofNat 8 h.s] ++ [BitVec.ofNat 8 (h.o / 256), BitVec.ofNat 8 h.o] ++
      [BitVec.ofNat 8 (64 * h.kind.code + if h.scan = true then 32 else 0), BitVec.ofNat 8 h.step,
        BitVec.ofNat 8 (64 * h.station.code + 16 * h.belt.code),
        BitVec.ofNat 8 (64 * h.outlet.code + if decide (h.mode = .alone) = true then 32 else 0)] := by
  have mode : h.mode.code = bit (decide (h.mode = .alone)) := by cases h.mode <;> rfl
  rw [helloPayload, two_eq, two_eq, flag_eq, flag_eq, mode]

/-- Settles O47: record by record, each byte or field from its own part of the state. -/
theorem responseLayouts : Obligations.ResponseLayouts := by
  unfold Obligations.ResponseLayouts
  intro s
  dsimp only
  refine ⟨?status, ?roster, ?pages, fun i => ⟨fun free => ?free, fun en used => ⟨?part0, ?part1⟩⟩⟩
  case status =>
    simp only [State.statusRecord, bytesOf, List.map_cons, List.map_nil, List.cons_append, List.nil_append, List.cons.injEq, and_true]
    refine ⟨by cases s.station.state <;> rfl, by cases s.belt.state <;> rfl, rfl, rfl, by simp, ?_, ?_, by cases s.gate.state <;> rfl,
      ?_, ?_, rfl⟩
    · cases s.station.mode <;> cases s.scan.band <;> rfl
    · cases s.outletState <;> rfl
    · simp only [flag_eq, State.statusFlags]
      congr 1
      ring
    · simp only [flag_eq, Attention.code]
      congr 1
      ring
  case roster =>
    refine ⟨(s.rosterGroup_of (a := 0) (b := 1) (c := 2) (d := 3) (by decide)).trans ?_,
      (s.rosterGroup_of (a := 4) (b := 5) (c := 6) (d := 7) (by decide)).trans ?_,
      (s.rosterGroup_of (a := 8) (b := 9) (c := 10) (d := 11) (by decide)).trans ?_,
      (s.rosterGroup_of (a := 12) (b := 13) (c := 14) (d := 15) (by decide)).trans ?_⟩
    all_goals
      iterate 3 refine append_congr ?_ ?_
      all_goals
        generalize s.station.roster[(_ : Fin 16)] = r
        obtain ⟨state, fields⟩ := r
        refine congrArg₂ List.cons (by cases state <;> rfl) ?_
        cases fields with
        | none => rfl
        | some h =>
          refine (helloPayload_eq h).trans (congrArg₂ List.append rfl ?_)
          refine congrArg₂ List.cons (by cases h.kind <;> rfl) (congrArg₂ List.cons rfl (congrArg₂ List.cons ?_
            (congrArg₂ List.cons (by cases h.outlet <;> rfl) rfl)))
          cases h.station <;> cases h.belt <;> rfl

  case pages =>
    refine ⟨s.pageBytes_of ?_, s.pageBytes_of ?_, s.pageBytes_of ?_, s.pageBytes_of ?_, s.pageBytes_of ?_, s.pageBytes_of ?_,
      s.pageBytes_of ?_⟩
    all_goals decide
  case free => simp [State.entryPart, free]
  case part0 =>
    have part : s.entryPart i 0 = en.part0 := by simp only [State.entryPart, used, if_true]
    refine part.trans ?_
    unfold Entry.part0
    dsimp only
    iterate 19 refine append_congr ?_ ?_
    · refine congrArg₂ List.cons ?_ (congrArg₂ List.cons ?_ rfl)
      · cases en.state <;> rfl
      · refine congrArg _ ?_
        simp only [flag_eq]
        ring
    · exact two_eq _
    · exact three_eq _
    · exact three_eq _
    · rfl
    · exact two_eq _
    · refine congrArg₂ List.cons (congrArg _ ?_) rfl
      cases en.own with
      | none => rfl
      | some p =>
        simp only [Option.map_some, Option.getD_some, LocalPart.code, PieceFlags.code, flag_eq, one_mul]
        refine congrArg _ ?_
        cases p.cls <;> rfl
    · cases en.own <;> exact two_eq _
    · cases en.own <;> exact signed_eq _
    · cases en.own <;> exact signed_eq _
    · cases en.expectation <;> exact three_eq _
    · have half : (en.expectation.map fun x => x.h + 32768 * bit x.perhaps).getD 0 =
          (en.expectation.getD ⟨0, 0, false⟩).h + if (en.expectation.getD ⟨0, 0, false⟩).perhaps = true then 32768 else 0 := by
        cases en.expectation with
        | none => rfl
        | some x => simp only [Option.map_some, Option.getD_some, flag_eq]
      rw [half]
      exact two_eq _
    · exact three_eq _
    · refine congrArg₂ List.cons (congrArg _ ?_) rfl
      cases en.decision with
      | none => rfl
      | some d =>
        simp only [Option.map_some, Option.getD_some, flag_eq]
        refine congrArg (· + _) ?_
        cases d.cls <;> rfl
    · exact three_eq _
    · exact three_eq _
    · cases en.decision <;> exact four_eq _
    · refine congrArg₂ List.cons (congrArg _ ?_) (congrArg₂ List.cons (congrArg _ ?_) rfl)
      · cases en.decision with
        | none => rfl
        | some d => simp only [Option.map_some, Option.getD_some, WindowFlags.code, flag_eq]; ring
      · cases en.escapeSource <;> rfl
    · cases en.escapeSource <;> exact two_eq _
    · rfl
  case part1 =>
    have part : s.entryPart i 1 = en.part1 := by simp only [State.entryPart, used]; rfl
    refine part.trans (append_congr ?_ (congrArg (List.flatMap · en.reports) (funext fun r => ?_)))
    · refine congrArg₂ List.cons ?_ rfl
      cases en.state <;> rfl
    · unfold PeerReport.bytes
      iterate 8 refine append_congr ?_ ?_
      · rfl
      · exact two_eq _
      · exact two_eq _
      · refine congrArg₂ List.cons (congrArg _ ?_) rfl
        refine congrArg₂ (· + 16 * ·) ?_ ?_
        · cases r.cls <;> rfl
        · cases r.verdict <;> rfl
      · exact two_eq _
      · refine congrArg₂ List.cons (congrArg _ ?_) rfl
        simp only [PieceFlags.code, flag_eq, one_mul]

      · exact three_eq _
      · exact two_eq _
      · rfl

end Sys2Proof.Machine
end

section
/-! PROOFS. The gate: its switches and travel timer, its open and close events and the hold-through test. -/

namespace Sys2Proof.Machine

/-! ### Switches and the travel timer -/

/-- The history after a gate has ended the interval it is in (R113). -/
def Gate.historyAt (g : Gate) (last : Count) : List Interval :=
  match g.current with
  | some b => (if 4 ≤ g.history.length then g.history.drop 1 else g.history) ++ [⟨b, last⟩]
  | none => g.history

/-- The end of an interval, field by field (R113). -/
theorem Gate.endInterval_of (g : Gate) (last : Count) :
    g.endInterval last = { g with current := none, history := g.historyAt last } := by
  cases inside : g.current <;> simp [Gate.endInterval, Gate.historyAt, inside]
  rw [← inside]

/-- A gate enters FAULT (R113, R120). -/
theorem State.enterGateFault_of (e : State) (g : Gate) : State.enterGateFault { e with gate := g } =
    State.bump { e with
      gate := { g with
        state := .fault, travel := none, current := none, history := g.historyAt (shift e.belt.count (Machine.lead e.belt.t64 e.opts.d)) } }
      .gateFault := by
  rw [State.enterGateFault, Gate.endInterval_of]
  rfl

/-- Settles O35: by the state the gate is in at the event. -/
theorem gateEventsAct : Obligations.GateEventsAct := by
  unfold Obligations.GateEventsAct
  refine fun l s e he running => ⟨fun sw high g gated changed made => ?switch, fun n travel moves limit => ?timer⟩
  case switch =>
    have level : e.gate.level sw ≠ high := by cases sw <;> exact changed
    have accepted : e.gate.accept sw high = g := by cases sw <;> exact made.symm
    refine exec_running he running rfl rfl (((if_pos ⟨gated, level⟩ : e.switchEvent sw high = _)).trans ?_)
    rw [accepted, State.switched]
    have both : g.bothClosed = true ↔ g.swRest = false ∧ g.swDiv = false := by simp [Gate.bothClosed]
    by_cases closed : g.swRest = false ∧ g.swDiv = false
    · rw [if_pos (both.mpr closed), if_pos closed]
      cases state : g.state with
      | fault => rfl
      | rest | movingOut | divert | movingBack => exact e.enterGateFault_of g
    · rw [if_neg fun h => closed (both.mp h), if_neg closed]
      have divert : g.atDivert = true ↔ g.swDiv = false := by
        cases rest : g.swRest <;> cases div : g.swDiv <;> simp_all [Gate.atDivert]
      have rest : g.atRest = true ↔ g.swRest = false := by
        cases rest : g.swRest <;> cases div : g.swDiv <;> simp_all [Gate.atRest]
      cases state : g.state <;> simp [divert, rest]
  case timer =>
    have due : e.travelDue = true := by
      rcases moves with h | h <;> simpa [State.travelDue, h, travel, travelLimit] using limit
    exact exec_running he running rfl rfl ((if_pos due : e.travelTimeout = _).trans (e.enterGateFault_of e.gate))

/-! ### Open and close events -/

/-- A window joins the close queue by its close point (R91). -/
theorem insertBehind_pClose (w : Window) (q : List Window) :
    insertBehind (fun y x => isBefore x.pClose y.pClose) w q = placed (fun y => reaches w.pClose y.pClose) w q := by
  rw [insertBehind_eq_placed]
  simp only [isBefore, Bool.not_not]

/-- The gate is called out, field by field (R113, R114). -/
theorem Gate.callOut_of (g : Gate) (count : Count) (L : Nat) : g.callOut count L =
    { g with
      state := if g.atDivert then .divert else .movingOut
      travel := if g.atDivert then none else some 0
      current := some (g.current.getD (shift count L)) } := by
  unfold Gate.callOut
  have same : Gate.atDivert { g with current := some (g.current.getD (shift count L)) } = g.atDivert := rfl
  cases there : g.atDivert <;> simp [same, there]

/-- The gate is released, field by field (R113, R117). -/
theorem Gate.sendBack_of (g : Gate) (count : Count) (L : Nat) : g.sendBack count L =
    { g with
      state := if g.atRest then .rest else .movingBack
      travel := if g.atRest then none else some 0
      current := none
      history := g.historyAt (shift count L) } := by
  rw [Gate.sendBack, Gate.endInterval_of]
  dsimp only
  have same : Gate.atRest { g with current := none, history := g.historyAt (shift count L) } = g.atRest := rfl
  cases back : g.atRest <;> simp [same, back]

/-- Settles O32: each event by the gate's state, its holders and the hold-through test. -/
theorem gateWindowEvents : Obligations.GateWindowEvents := by
  unfold Obligations.GateWindowEvents
  intro s L w gated
  dsimp only
  have out : s.gate.state.commanded = true ↔ s.gate.state = .movingOut ∨ s.gate.state = .divert := by
    cases s.gate.state <;> simp [GateState.commanded]
  have opens : s.openEvent L w = s.gateOpenEvent L w := by rw [State.openEvent, gated]
  have closes : s.closeEvent L w = s.gateCloseEvent L w := by rw [State.closeEvent, gated]
  have there : decide (s.gate.swRest = true ∧ s.gate.swDiv = false) = s.gate.atDivert := by
    simp [Gate.atDivert, Bool.decide_and]
  have back : decide (s.gate.swRest = false ∧ s.gate.swDiv = true) = s.gate.atRest := by simp [Gate.atRest, Bool.decide_and]
  have verdict : (if s.gate.state = .divert ∧ w.flags.lateOpen = false ∧ w.flags.longCut = false then Verdict.ejected else .trimmed) =
      gateVerdict s.gate.state w.flags := by
    generalize w.flags = f
    obtain ⟨lateOpen, longCut, -, -⟩ := f
    cases s.gate.state <;> cases lateOpen <;> cases longCut <;> rfl
  simp only [there, back, verdict, decide_eq_true_eq, decide_eq_false_iff_not, ← out]
  refine ⟨fun full => ?full, fun room => ?room, ⟨fun stays => ?stays, fun last commanded held => ?held, fun last commanded held => ?back⟩,
    fun commanded empty held => ?release, fun stays => ?keep⟩
  case full => rw [opens, State.gateOpenEvent, if_pos full]; rfl
  case room =>
    rw [opens, State.gateOpenEvent, if_neg (by omega), insertBehind_pClose]
    have taken : s.gate.takeHolder s.belt.count L = (if s.gate.state = .rest ∨ s.gate.state = .movingBack then
        Gate.callOut { s.gate with holders := s.gate.holders + 1 } s.belt.count L
      else { s.gate with holders := s.gate.holders + 1 }) := by
      cases state : s.gate.state <;> simp [Gate.takeHolder, state]
    rw [taken, Gate.callOut_of]
    rfl
  case stays =>
    rw [closes]
    refine if_neg fun ⟨free, commanded⟩ => ?_
    have few : s.gate.holders ≤ 1 := Nat.sub_eq_zero_iff_le.mp free
    exact stays.elim (fun many => absurd few (Nat.not_le.mpr many)) fun not => not commanded
  case held =>
    rw [closes]
    exact (if_pos ⟨Nat.sub_eq_zero_of_le last, commanded⟩).trans (if_pos held)
  case back =>
    rw [closes]
    refine (if_pos ⟨Nat.sub_eq_zero_of_le last, commanded⟩).trans ((if_neg (Bool.eq_false_iff.mp held)).trans ?_)
    rw [State.releaseGate, State.issue, Gate.sendBack_of]
    dsimp only
    rw [Nat.sub_eq_zero_of_le last]
    rfl
  case release =>
    refine (if_pos ⟨gated, commanded, empty, held⟩).trans ?_
    rw [State.releaseGate, Gate.sendBack_of]
    rfl
  case keep =>
    refine if_neg fun ⟨_, commanded, empty, fails⟩ => ?_
    rcases stays with not | some | held
    · exact not commanded
    · omega
    · exact Bool.false_ne_true (fails.symm.trans held)

end Sys2Proof.Machine
end

section
/-! PROOFS. The lanes: their timers, the test lane, the grant and the events of lane windows. -/

namespace Sys2Proof.Machine

/-! ### Timers and test lanes -/

/-- Settles O30: each timer by what makes it due, and TEST LANE by the tests of R106. -/
theorem laneTimersAndTests : Obligations.LaneTimersAndTests := by
  unfold Obligations.LaneTimersAndTests
  refine ⟨fun l n s e he running => ⟨fun since opened at_ limit => ?trip, fun till cools at_ past => ?cool,
      fun t test limit last => ?ends⟩, fun t c rest s e he running selected writing args => ⟨fun above => ?above,
      fun n same => ⟨fun ⟨lanes, paused, closed, room⟩ => ?opens, fun bad => ?refused⟩⟩⟩
  case trip =>
    have due : e.tripDue n = true := by
      simp only [State.tripDue, opened, at_, decide_true, Bool.true_and, decide_eq_true_eq]
      exact limit
    exact exec_running he running rfl rfl (if_pos due)
  case cool =>
    have due : e.coolDue n = true := by
      simp only [State.coolDue, cools, at_, decide_true, Bool.true_and, decide_eq_true_eq]
      exact past
    exact exec_running he running rfl rfl (if_pos due)
  case ends =>
    have due : e.testDue n = true := by
      simp only [State.testDue, test, decide_eq_true_eq]
      exact limit
    have ended : e.outlets.lanes[n].endTest =
        { e.outlets.lanes[n] with state := .closed, holders := 0, openedAt := none, test := none } := by
      rw [Lane.endTest, if_pos (by rw [test]; rfl), Lane.release, if_pos (by omega)]
    exact exec_running he running rfl rfl ((if_pos due : e.endTestLane n = _).trans (by rw [ended]; rfl))
  all_goals
    have taken : ∀ own : State → State, e.transact t 1 anyArgs own = own e.discardResponse := fun own =>
      State.transact_taken running selected writing (by simp [args]) rfl
    have first : argNum t.args 0 = c.toNat := by rw [args]; rfl
    refine exec_running he running rfl rfl ((taken _).trans ?_)
    rw [first, State.testLaneCommand]
  case above => exact dif_neg (by omega)
  case opens =>
    have below : c.toNat < 32 := same ▸ n.isLt
    obtain rfl : n = ⟨c.toNat, below⟩ := Fin.ext same
    refine (dif_pos below).trans (if_neg ?_)
    have avail : e.discardResponse.avail = e.budget - e.outlets.openCount := rfl
    rintro (other | runs | busy | full)
    · exact other lanes
    · exact runs paused
    · exact busy closed
    · omega
  case refused =>
    have below : c.toNat < 32 := same ▸ n.isLt
    obtain rfl : n = ⟨c.toNat, below⟩ := Fin.ext same
    exact (dif_pos below).trans (if_pos (bad.imp_right (.imp_right (.imp_right Nat.sub_eq_zero_of_le))))

/-! ### The grant -/

/-- A lane is visited before another (R100): nearer to the centroid, or as near and higher. -/
def Visits (centroid : Nat) (m n : Fin 32) : Prop :=
  ((m.val : Int) - (centroid : Int)).natAbs < ((n.val : Int) - (centroid : Int)).natAbs ∨
    (((m.val : Int) - (centroid : Int)).natAbs = ((n.val : Int) - (centroid : Int)).natAbs ∧ n < m)

/-- The lanes of the span are the lanes visited (R100). -/
theorem mem_visitOrder_iff {sp : Span} (inside : sp.centroid < 32) (n : Fin 32) :
    n ∈ visitOrder sp ↔ sp.first ≤ n.val ∧ n.val ≤ sp.last := by
  refine ⟨mem_visitOrder, fun span => ?_⟩
  have below := n.isLt
  refine List.mem_filterMap.mpr ⟨n.val, List.mem_flatMap.mpr
    ⟨((n.val : Int) - (sp.centroid : Int)).natAbs, List.mem_range.mpr (by omega), ?_⟩, by rw [dif_pos below, if_pos span]⟩
  split
  · rw [List.mem_singleton]; omega
  · split
    · rw [List.mem_pair]; omega
    · rw [List.mem_singleton]; omega

/-- The lanes at a distance from the centroid. -/
theorem natAbs_of_mem_ring {c d x : Nat} (h : x ∈ (if d = 0 then [c] else if d ≤ c then [c + d, c - d] else [c + d])) :
    ((x : Int) - (c : Int)).natAbs = d := by
  split at h
  · rw [List.mem_singleton] at h; omega
  · split at h
    · rw [List.mem_pair] at h; omega
    · rw [List.mem_singleton] at h; omega

/-- The lanes are visited outward from the centroid, the higher first at each distance (R100). -/
theorem visitOrder_pairwise (sp : Span) : (visitOrder sp).Pairwise (Visits sp.centroid) := by
  refine List.Pairwise.filterMap
    (R := fun m n : Nat => ((m : Int) - (sp.centroid : Int)).natAbs < ((n : Int) - (sp.centroid : Int)).natAbs ∨
      (((m : Int) - (sp.centroid : Int)).natAbs = ((n : Int) - (sp.centroid : Int)).natAbs ∧ n < m)) _ ?_ ?_
  · intro m n before m' hm n' hn
    have lane : ∀ {x : Nat} {y : Fin 32},
        (if h : x < 32 then if sp.first ≤ x ∧ x ≤ sp.last then some (⟨x, h⟩ : Fin 32) else none else none) = some y → x = y.val := by
      intro x y h
      split at h
      · split at h
        · cases h; rfl
        · cases h
      · cases h
    rw [lane hm, lane hn] at before
    exact before
  · refine List.pairwise_flatMap.mpr ⟨fun d _ => ?_, List.pairwise_lt_range.imp fun less x hx y hy => ?_⟩
    · split
      · exact List.pairwise_singleton _ _
      · split
        · rw [List.pairwise_pair]; omega
        · exact List.pairwise_singleton _ _
    · exact .inl (by rwa [natAbs_of_mem_ring hx, natAbs_of_mem_ring hy])

/-- What a grant has done after the lanes visited so far (R100). -/
structure Granted (now : TimeBase) (avail : Nat) (centroid : Nat) (o : Outlets) (visited : List (Fin 32)) (g : GrantResult) :
    Prop where
  room : Outlets.openCount { o with lanes := g.lanes } + g.avail = o.openCount + avail
  granted : ∀ n : Fin 32, g.granted.getLsbD n.val = true ↔ n ∈ visited ∧ g.lanes[n].state = .opened
  skipped : g.skipped = true ↔ ∃ n ∈ visited, g.granted.getLsbD n.val = false
  lanes : ∀ n : Fin 32, g.lanes[n] =
    if g.granted.getLsbD n.val = false then o.lanes[n]
    else if o.lanes[n].state = .opened then { o.lanes[n] with holders := o.lanes[n].holders + 1 }
    else { o.lanes[n] with state := .opened, holders := 1, openedAt := some now }
  left : ∀ n ∈ visited, o.lanes[n].state = .closed → g.granted.getLsbD n.val = false → g.avail = 0 ∧
    ∀ m : Fin 32, g.granted.getLsbD m.val = true → o.lanes[m].state = .closed → Visits centroid m n

section

variable {now : TimeBase} {avail centroid : Nat} {o : Outlets} {visited : List (Fin 32)} {g : GrantResult}

/-- A lane not visited yet is as it was, and not granted. -/
theorem Granted.fresh (h : Granted now avail centroid o visited g) {n : Fin 32} (fresh : n ∉ visited) :
    g.granted.getLsbD n.val = false ∧ g.lanes[n] = o.lanes[n] := by
  have notYet : g.granted.getLsbD n.val = false := Bool.eq_false_iff.mpr fun has => fresh ((h.granted n).mp has).1
  exact ⟨notYet, (h.lanes n).trans (if_pos notYet)⟩

/-- The next lane visited is granted: it is OPEN, or opens within the room (R100). -/
theorem Granted.take (h : Granted now avail centroid o visited g) {n : Fin 32} (fresh : n ∉ visited) {l : Lane} {left : Nat}
    (made : l = if o.lanes[n].state = .opened then { o.lanes[n] with holders := o.lanes[n].holders + 1 }
      else { o.lanes[n] with state := .opened, holders := 1, openedAt := some now })
    (room : left + 1 = g.avail + bit (decide (o.lanes[n].state = .opened))) :
    Granted now avail centroid o (visited ++ [n])
      { g with lanes := g.lanes.set n l, avail := left, granted := LaneSet.add g.granted n } := by
  obtain ⟨notYet, still⟩ := h.fresh fresh
  have opened : l.state = .opened := by
    rw [made]
    split
    · assumption
    · rfl
  have lane : ∀ m : Fin 32, (g.lanes.set n l)[m] = if m = n then l else g.lanes[m] := fun m => by
    simp only [Fin.getElem_fin, Vector.getElem_set, Fin.ext_iff, eq_comm]
  have kept : ∀ m : Fin 32, m ≠ n → (LaneSet.add g.granted n).getLsbD m.val = g.granted.getLsbD m.val := fun m other => by
    rw [getLsbD_add, decide_eq_false other, Bool.or_false]
  have given : (LaneSet.add g.granted n).getLsbD n.val = true := by rw [getLsbD_add, decide_eq_true rfl, Bool.or_true]
  refine ⟨?_, fun m => ?_, ?_, fun m => ?_, fun k seen closed not => ?_⟩
  · have count := Outlets.openCount_set { o with lanes := g.lanes } n l
    have before := h.room
    rw [decide_eq_true opened, still, show bit true = 1 from rfl] at count
    dsimp only at count ⊢
    omega
  · rw [lane]
    by_cases same : m = n
    · simp [same, given, opened]
    · rw [if_neg same, kept m same, h.granted m, List.mem_append, List.mem_singleton, or_iff_left same]
  · refine h.skipped.trans ⟨fun ⟨m, seen, not⟩ => ⟨m, List.mem_append_left _ seen, ?_⟩, fun ⟨m, seen, not⟩ => ?_⟩
    · exact (kept m fun same => fresh (same ▸ seen)).trans not
    · have other : m ≠ n := fun same => by rw [same, given] at not; cases not
      exact ⟨m, (List.mem_append.mp seen).resolve_right fun here => other (List.mem_singleton.mp here), (kept m other) ▸ not⟩
  · rw [lane]
    by_cases same : m = n
    · rw [if_pos same, same, given, if_neg (by simp)]
      exact made
    · rw [if_neg same, kept m same]
      exact h.lanes m
  · have other : k ≠ n := fun same => by rw [same, given] at not; cases not
    obtain ⟨none, before⟩ := h.left k ((List.mem_append.mp seen).resolve_right fun here => other (List.mem_singleton.mp here)) closed
      (kept k other ▸ not)
    have wasOpen : o.lanes[n].state = .opened := by
      by_contra not
      rw [none, decide_eq_false not] at room
      simp [bit] at room
    refine ⟨?_, fun m has shut => ?_⟩
    · rw [none, decide_eq_true wasOpen] at room
      simpa [bit] using room
    · have different : m ≠ n := fun same => by rw [same, wasOpen] at shut; cases shut
      exact before m (kept m different ▸ has) shut

/-- The next lane visited is skipped: it is cooling, or no room is left (R100). -/
theorem Granted.skip (h : Granted now avail centroid o visited g) {n : Fin 32} (fresh : n ∉ visited)
    (later : ∀ m ∈ visited, Visits centroid m n) (shut : o.lanes[n].state = .cooling ∨ (o.lanes[n].state = .closed ∧ g.avail = 0)) :
    Granted now avail centroid o (visited ++ [n]) { g with skipped := true } := by
  obtain ⟨notYet, still⟩ := h.fresh fresh
  have notOpen : g.lanes[n].state ≠ .opened := by
    rw [still]
    rcases shut with h | ⟨h, -⟩ <;> rw [h] <;> decide
  refine ⟨h.room, fun m => ?_, ?_, h.lanes, fun k seen closed not => ?_⟩
  · refine (h.granted m).trans ⟨fun ⟨seen, opened⟩ => ⟨List.mem_append_left _ seen, opened⟩, fun ⟨seen, opened⟩ => ⟨?_, opened⟩⟩
    refine (List.mem_append.mp seen).resolve_right fun here => notOpen ?_
    rwa [List.mem_singleton.mp here] at opened
  · exact iff_of_true rfl ⟨n, List.mem_append_right _ (List.mem_singleton_self n), notYet⟩
  · rcases List.mem_append.mp seen with before | here
    · exact h.left k before closed not
    · obtain rfl := List.mem_singleton.mp here
      have none : g.avail = 0 := by
        rcases shut with cooling | ⟨-, none⟩
        · rw [cooling] at closed; cases closed
        · exact none
      exact ⟨none, fun m has _ => later m ((h.granted m).mp has).1⟩

/-- One lane more visited (R100). -/
theorem Granted.visit (h : Granted now avail centroid o visited g) {n : Fin 32} (fresh : n ∉ visited)
    (later : ∀ m ∈ visited, Visits centroid m n) : Granted now avail centroid o (visited ++ [n]) (grantVisit now g n) := by
  have still := (h.fresh fresh).2
  cases state : o.lanes[n].state with
  | opened =>
    have visit : grantVisit now g n = { g with
        lanes := g.lanes.set n { o.lanes[n] with holders := o.lanes[n].holders + 1 }, granted := LaneSet.add g.granted n } := by
      simp only [grantVisit, still, state]
    rw [visit]
    exact h.take fresh (by rw [if_pos state]) (by rw [decide_eq_true state]; rfl)
  | closed =>
    have closed : ¬o.lanes[n].state = .opened := by rw [state]; decide
    by_cases none : g.avail = 0
    · have visit : grantVisit now g n = { g with skipped := true } := by simp only [grantVisit, still, state, none, if_true]
      rw [visit]
      exact h.skip fresh later (.inr ⟨state, none⟩)
    · have visit : grantVisit now g n = { g with
          lanes := g.lanes.set n (o.lanes[n].openAt now), avail := g.avail - 1, granted := LaneSet.add g.granted n } := by
        simp only [grantVisit, still, state, none, if_false]
      rw [visit]
      refine h.take fresh (by rw [if_neg closed]; rfl) ?_
      rw [decide_eq_false closed]
      exact Nat.succ_pred none
  | cooling =>
    have visit : grantVisit now g n = { g with skipped := true } := by simp only [grantVisit, still, state]
    rw [visit]
    exact h.skip fresh later (.inl state)

/-- The lanes of a list visited one after another (R100). -/
theorem Granted.visits : ∀ {order visited : List (Fin 32)} {g : GrantResult}, Granted now avail centroid o visited g →
    (visited ++ order).Pairwise (Visits centroid) → Granted now avail centroid o (visited ++ order) (order.foldl (grantVisit now) g)
  | [], visited, g, h, _ => by rw [List.append_nil]; exact h
  | n :: order, visited, g, h, ordered => by
    have before : ∀ m ∈ visited, Visits centroid m n := fun m seen =>
      (List.pairwise_append.mp ordered).2.2 m seen n List.mem_cons_self
    have fresh : n ∉ visited := fun seen => by
      have self := before n seen
      simp [Visits] at self
    have next := h.visit fresh before
    rw [List.append_cons] at ordered ⊢
    exact next.visits ordered

end

/-- The grant of a window (R100). -/
theorem grantLanes_granted (now : TimeBase) (avail : Nat) (sp : Span) (o : Outlets) :
    Granted now avail sp.centroid o (visitOrder sp) (grantLanes now avail sp o.lanes) := by
  have start : Granted now avail sp.centroid o [] ⟨o.lanes, avail, 0, false⟩ :=
    ⟨rfl, fun n => by simp, by simp, fun n => by simp, fun n seen => nomatch seen⟩
  exact start.visits (visitOrder_pairwise sp)

/-! ### Events of lane windows -/

/-- Settles O31: the grant by what its visits keep, each event by its tests. -/
theorem laneWindowEvents : Obligations.LaneWindowEvents := by
  unfold Obligations.LaneWindowEvents
  refine ⟨fun now avail sp o inside => ?grant, fun s L w sp lanes span => ⟨fun full => ?full, fun room none => ?none,
    fun room some => ?some, ?closes⟩⟩
  case grant =>
    have h := grantLanes_granted now avail sp o
    have visited := mem_visitOrder_iff inside
    refine ⟨h.room, fun n => (h.granted n).trans (and_congr_left' (visited n)), h.skipped.trans ?_, h.lanes,
      fun n m span closed not => ?_⟩
    · exact exists_congr fun n => and_congr_left' (visited n)
    · obtain ⟨none, before⟩ := h.left n ((visited n).mpr span) closed not
      exact ⟨none, before m⟩
  all_goals
    have opens : s.openEvent L w = s.laneOpenEvent w := by rw [State.openEvent, lanes]
  case full => rw [opens, State.laneOpenEvent, if_pos full]; rfl
  case none =>
    rw [opens, State.laneOpenEvent, if_neg (by omega), span]
    exact if_pos none
  case some =>
    rw [opens, State.laneOpenEvent, if_neg (by omega), span]
    refine (if_neg some).trans ?_
    dsimp only
    rw [insertBehind_pClose]
    rfl
  case closes =>
    have closes : s.closeEvent L w = s.laneCloseEvent w := by rw [State.closeEvent, lanes]
    refine ⟨_, closes, fun n => ?_, ?_⟩
    · refine (getElem_releaseLanes w.grant s.outlets.lanes n).trans ?_
      cases held : w.grant.getLsbD n.val with
      | false => rw [if_neg (by rw [LaneSet.has, held]; exact Bool.false_ne_true), if_pos rfl]
      | true =>
        rw [if_pos (show LaneSet.has w.grant n = true from held), if_neg (by decide), Lane.release]
        by_cases last : s.outlets.lanes[n].holders ≤ 1
        · rw [if_pos last, if_neg (Nat.not_lt.mpr last)]
        · rw [if_neg last, if_pos (Nat.lt_of_not_le last)]
    · have verdict : w.flags.laneVerdict =
          if w.flags.lateOpen ∨ w.flags.longCut ∨ w.flags.lanesTrimmed ∨ w.flags.cut then .trimmed else .ejected := by
        simp only [WindowFlags.laneVerdict, WindowFlags.any, Bool.or_eq_true, or_assoc]
      rw [State.laneCloseEvent, verdict]
      rfl

end Sys2Proof.Machine
end

section
/-! PROOFS. The outlets at a forward step: the windows that are due, taken in order. -/

namespace Sys2Proof.Machine

/-! ### Front passes as runs -/

/-- A front pass of acts that leave the open queue alone acts on the due windows at the front, in order (R94). -/
theorem frontPass_eq {isDue : Window → Bool} {act : Window → State → State}
    (commutes : ∀ w s q, act w (State.setOpenQ s q) = (act w s).setOpenQ q) : ∀ (q : List Window) (s : State),
    frontPass isDue act q s = (q.takeWhile isDue).foldl (fun t w => act w t) (s.setOpenQ (q.dropWhile isDue))
  | [], _ => rfl
  | w :: rest, s => by
    have again : ∀ q' : List Window, (act w (s.setOpenQ rest)).setOpenQ q' = act w (s.setOpenQ q') := fun q' => by
      rw [commutes, commutes]
      rfl
    unfold frontPass
    cases due : isDue w with
    | true => rw [if_pos rfl, frontPass_eq commutes, again, List.takeWhile_cons_of_pos due, List.dropWhile_cons_of_pos due, List.foldl_cons]
    | false =>
      have not : ¬isDue w = true := by simp [due]
      rw [if_neg Bool.false_ne_true, List.takeWhile_cons_of_neg not, List.dropWhile_cons_of_neg not]
      rfl

/-- Runs of two acts that agree where a property holds, which the first keeps. -/
theorem foldl_eq_of_keeps {α : Type} {P : State → Prop} {f g : State → α → State} (same : ∀ t x, P t → f t x = g t x)
    (keeps : ∀ t x, P t → P (f t x)) : ∀ (xs : List α) (t : State), P t → xs.foldl f t = xs.foldl g t
  | [], _, _ => rfl
  | x :: xs, t, h => by
    rw [List.foldl_cons, List.foldl_cons, ← same t x h]
    exact foldl_eq_of_keeps same keeps xs _ (keeps t x h)

/-- What each act of a run keeps, the run keeps. -/
theorem foldl_keeps {α : Type} {P : State → Prop} {f : State → α → State} (keeps : ∀ t x, P t → P (f t x)) :
    ∀ (xs : List α) (t : State), P t → P (xs.foldl f t)
  | [], _, h => h
  | x :: xs, t, h => foldl_keeps keeps xs _ (keeps t x h)

/-- An open event neither reads nor changes the open queue. -/
theorem State.openEvent_setOpenQ (s : State) (q : List Window) (L : Nat) (w : Window) :
    (s.setOpenQ q).openEvent L w = (s.openEvent L w).setOpenQ q := by
  unfold State.openEvent
  rw [show (s.setOpenQ q).opts = s.opts from rfl]
  cases s.opts.kind with
  | nothing => rfl
  | gate =>
    dsimp only
    unfold State.gateOpenEvent
    rw [apply_ite (fun t : State => t.setOpenQ q)]
    rfl
  | lanes =>
    dsimp only
    unfold State.laneOpenEvent
    rw [apply_ite (fun t : State => t.setOpenQ q)]
    dsimp only
    rw [apply_ite (fun t : State => t.setOpenQ q)]
    rfl

/-- A close event leaves blocking as it is (R102, R117). -/
theorem State.closeEvent_blocked (s : State) (L : Nat) (w : Window) : (s.closeEvent L w).blocked = s.blocked := by
  refine (s.closeEvent_work L w).blocked ?_
  unfold State.closeEvent
  split
  · rfl
  · exact (s.gateCloseEvent_gate L w).2.1.fault
  · rfl

/-- The windows that close at a step: of those due at the front of the close queue, those that did not join it at this step
(R94). -/
theorem splitClosing_eq (isDue fresh : Window → Bool) : ∀ q : List Window, splitClosing isDue fresh q =
    ((q.takeWhile isDue).filter (fun w => !fresh w), (q.takeWhile isDue).filter fresh ++ q.dropWhile isDue)
  | [] => rfl
  | w :: rest => by
    unfold splitClosing
    rw [splitClosing_eq isDue fresh rest]
    cases due : isDue w <;> cases new : fresh w <;> simp [due, new]

/-! ### The passes of a step -/

/-- A forward step on a MOVING belt: the passes, and the gate's hold where the outlets are not blocked (R94, R118). -/
theorem State.outletStep_of_moving {s t : State} {became : Bool} (moves : s.belt.state = .moving)
    (passes : (if became = true then
        frontPass (fun w => s.due s.lead w.pOpen) (State.resolve s.lead) s.outlets.openQ { s with gate := s.gate.expire s.belt.count }
      else if s.blocked = true then
        frontPass (fun w => s.due s.lead w.pOpen) State.denyBlocked s.outlets.openQ { s with gate := s.gate.expire s.belt.count }
      else State.duePasses { s with gate := s.gate.expire s.belt.count } s.lead) = t)
    (same : t.blocked = s.blocked) : s.outletStep became = if s.blocked = true then t else t.holdStep s.lead := by
  rw [← same, ← passes]
  exact if_pos moves

/-- A resolution neither reads nor changes the open queue (R98). -/
theorem State.resolve_setOpenQ (s : State) (q : List Window) (L : Nat) (w : Window) :
    State.resolve L w (s.setOpenQ q) = (State.resolve L w s).setOpenQ q := by
  unfold State.resolve
  rw [State.openEvent_setOpenQ, apply_ite (fun t : State => t.setOpenQ q), apply_ite (fun t : State => t.setOpenQ q)]
  rfl

/-- A resolution leaves the belt and blocking as they are (R98). -/
theorem State.resolve_keeps (s : State) (L : Nat) (w : Window) :
    (State.resolve L w s).belt = s.belt ∧ (State.resolve L w s).blocked = s.blocked := by
  refine ⟨?_, ?_⟩
  · obtain ⟨_, _, _, _, work⟩ := (State.resolve_work L w s).eq
    rw [work]
  · unfold State.resolve
    split
    · rfl
    · split
      · rfl
      · exact s.openEvent_blocked L _

/-- Settles O33: each pass is a run over the due windows at the front. -/
theorem outletStepInOrder : Obligations.OutletStepInOrder := by
  unfold Obligations.OutletStepInOrder
  rintro s _ rfl
  refine ⟨fun still became => State.outletStep_of_still still became, fun moves free => ⟨fun u v hu hv => ?opens, ?resolves⟩,
    fun moves blocked => ⟨?denies, ?settles⟩⟩
  case opens =>
    have opened : u.blocked = false := by
      rw [hu]
      exact foldl_keeps (P := fun t => t.blocked = false) (fun t w h => (t.openEvent_blocked _ w).trans h) _ _ free
    have closed : v.blocked = s.blocked := by
      rw [hv, free]
      exact foldl_keeps (P := fun t => t.blocked = false) (fun t w h => (t.closeEvent_blocked _ w).trans h) _ _ opened
    refine (State.outletStep_of_moving moves (?_ : _ = v) closed).trans (if_neg (Bool.eq_false_iff.mp free))
    rw [if_neg Bool.false_ne_true, if_neg (Bool.eq_false_iff.mp free), State.duePasses, frontPass_eq fun w t q => t.openEvent_setOpenQ q _ w]
    have held : ∀ w : Window, (s.outlets.closeQ.map Window.slot).contains w.slot = s.outlets.closeQ.any fun x => decide (x.slot = w.slot) :=
      fun w => by rw [List.contains_eq_any_beq, List.any_map]; exact congrArg _ (funext fun x => by simp [beq_eq_decide, eq_comm])
    dsimp only
    rw [splitClosing_eq]
    simp only [held, Bool.not_not]
    rw [hv, hu]
    rfl
  case denies =>
    refine (State.outletStep_of_moving moves ((if_neg Bool.false_ne_true).trans (if_pos blocked)) ?_).trans ((if_pos blocked).trans ?_)
    · rw [frontPass_eq fun w t q => rfl]
      refine foldl_keeps (P := fun t => t.blocked = s.blocked) (f := fun t w => State.denyBlocked w t) (fun t w h => h) _ _ ?_
      rfl
    · exact frontPass_eq (fun w t q => rfl) _ _
  all_goals
    have keeps : ∀ (t : State) (w : Window), t.belt = s.belt ∧ t.blocked = s.blocked →
        (State.resolve s.lead w t).belt = s.belt ∧ (State.resolve s.lead w t).blocked = s.blocked := fun t w h =>
      ⟨(t.resolve_keeps _ w).1.trans h.1, (t.resolve_keeps _ w).2.trans h.2⟩
    have pass := frontPass_eq (isDue := fun w => s.due s.lead w.pOpen) (fun w t q => t.resolve_setOpenQ q s.lead w) s.outlets.openQ
      { s with gate := s.gate.expire s.belt.count }
    refine (State.outletStep_of_moving moves ((if_pos rfl).trans pass) ?_).trans ?_
    · refine (foldl_keeps (P := fun t => t.belt = s.belt ∧ t.blocked = s.blocked) keeps _ _ ?_).2
      exact ⟨rfl, rfl⟩
  case resolves =>
    refine (if_neg (Bool.eq_false_iff.mp free)).trans (congrArg (State.holdStep · _) ?_)
    refine foldl_eq_of_keeps (fun t w h => ?_) keeps _ _ ⟨rfl, rfl⟩
    rw [State.resolve, State.due, h.1, h.2, free]
    rfl
  case settles =>
    refine (if_pos blocked).trans (foldl_eq_of_keeps (fun t w h => ?_) keeps _ _ ⟨rfl, rfl⟩)
    rw [State.resolve, State.due, h.1, h.2, if_pos blocked]
    have same : ∀ due : Bool, (if due = true then t.issue (.settled w.slot .denied (some .unsettled) w.flags) else State.denyBlocked w t) =
        t.issue (.settled w.slot .denied (some (if due = true then .unsettled else .blocked)) w.flags) := fun due => by
      cases due <;> rfl
    exact same _

/-! ### The blocked step -/

/-- Blocked windows settle with their reports in order, and nothing else changes (R97). -/
theorem foldl_denyBlocked : ∀ (ws : List Window) (s : State), ws.foldl (fun t w => State.denyBlocked w t) s =
    { s with table := { s.table with
        reports := s.table.reports ++ ws.map fun w => .settled w.slot .denied (some .blocked) w.flags } }
  | [], s => by simp
  | w :: ws, s => by
    rw [List.foldl_cons, foldl_denyBlocked ws]
    simp [State.denyBlocked, State.issue]

/-- Settles O34: the step's measure hands on to outlets that are blocked. -/
theorem blockedStepDenies : Obligations.BlockedStepDenies := by
  unfold Obligations.BlockedStepDenies
  intro l a b between s e g he running hg pair full moves why
  have blocked : e.blocked = true := e.blocked_iff.mpr (why.imp_right fun h => .inr (.inr h))
  obtain ⟨due, hdue⟩ : ∃ due : Bool, due = (match e.belt.lastRow with
    | none => true
    | some k => decide (0 ≤ diff (e.belt.count + 1) (shift k (e.opts.r : Int)))) := ⟨_, rfl⟩
  obtain ⟨t, v, run, hv, made, belt, -, -, slots, -⟩ :=
    forwardStepMeasures l a b between s e g he running hg pair full (.inr moves) due hdue _ rfl
  refine ⟨t, run, ?_⟩
  obtain ⟨q, x, r, f, tied, ahead⟩ := readAhead_frame hg
  rw [← belt, decide_eq_false (by rw [moves]; decide), Bool.false_and] at hv
  have count : t.belt.count = e.belt.count + 1 := by rw [belt]
  have moving : t.belt.state = .moving := by rw [belt]; exact if_neg fun h => by simp [moves] at h
  refine ⟨moving, count, ?_⟩
  generalize t.belt = now at hv count moving ⊢
  obtain ⟨n, frame, -⟩ := trigger_frame (e := e) (x := { g with belt := now }) (by rw [ahead]) (by rw [ahead]) (by rw [ahead]) due now.count
  rw [frame] at hv
  generalize hw : ({ g with belt := now, scan := if due then (e.trigger now.count).scan else e.scan, counters := n } : State) = w at hv
  have band : w.scan.band = e.scan.band := by
    rw [← hw]
    cases due
    · rfl
    · exact (e.trigger_keepsBut now.count).same .band (by simp)
  obtain ⟨belt', opts, station, outlets, gate, reports⟩ : w.belt = now ∧ w.opts = e.opts ∧ w.station = e.station ∧
      w.outlets = e.outlets ∧ w.gate = e.gate ∧ w.table.reports = g.table.reports := by
    rw [← hw, ahead]
    exact ⟨rfl, rfl, rfl, rfl, rfl, rfl⟩
  have still : w.blocked = true := (State.blocked_congr opts (by rw [station]) (by rw [belt', moving, moves]) band (by rw [gate])).trans blocked
  have denied := (hv.trans ((outletStepInOrder w _ rfl).2.2 (by rw [belt', moving]) still).1).trans (foldl_denyBlocked _ _)
  dsimp only at denied
  rw [belt', count, opts] at denied
  obtain ⟨outlets', reports', gate'⟩ := And.intro (congrArg State.outlets denied)
    (And.intro (congrArg (fun u => u.table.reports) denied) (congrArg State.gate denied))
  dsimp only at outlets' reports' gate'
  rw [outlets] at outlets' reports'
  rw [reports] at reports'
  rw [gate] at gate'
  refine ⟨⟨?_, ?_⟩, ?_, slots⟩
  · rw [made, handOn_outlets (.inl blocked)]; exact outlets'
  · rw [made, handOn_reports (.inl blocked)]; exact reports'
  · rw [made, handOn_gate (.inl blocked)]; exact gate'

end Sys2Proof.Machine
end

section
/-! PROOFS. The station's timers and the transmit queue: HELLOs, silence, and the ends of attempts. -/

namespace Sys2Proof.Machine

/-! ### A HELLO at the transmit queue (R141) -/

/-- Without an ESCAPE that is not being attempted none makes room (R141). -/
theorem lastIdleEscape_of_none : ∀ {q : List Notice}, (∀ n ∈ q, n.isIdleEscape = false) → lastIdleEscape q = none
  | [], _ => rfl
  | n :: rest, busy => by
    rw [lastIdleEscape, lastIdleEscape_of_none fun m hm => busy m (List.mem_cons_of_mem n hm), busy n List.mem_cons_self]
    rfl

/-- The ESCAPE of the highest ARB that joined last leaves (R141). -/
theorem lastIdleEscape_of_last {x : Notice} {after : List Notice} (idle : x.isIdleEscape = true)
    (behind : ∀ y ∈ after, y.isIdleEscape = true → y.arb < x.arb) : ∀ {before : List Notice},
    (∀ y ∈ before, y.isIdleEscape = true → y.arb ≤ x.arb) → lastIdleEscape (before ++ x :: after) = some (before ++ after)
  | [], _ => by
    have highest : (after.filter Notice.isIdleEscape).all (fun m => decide (m.arb < x.arb)) = true := by
      refine List.all_eq_true.mpr fun y hy => decide_eq_true ?_
      obtain ⟨place, escape⟩ := List.mem_filter.mp hy
      exact behind y place escape
    rw [List.nil_append, lastIdleEscape, idle, highest]
    cases lastIdleEscape after <;> rfl
  | y :: before, ahead => by
    have rest := lastIdleEscape_of_last (before := before) idle behind fun z hz => ahead z (List.mem_cons_of_mem y hz)
    have kept : (y.isIdleEscape && ((before ++ x :: after).filter Notice.isIdleEscape).all fun m => decide (m.arb < y.arb)) = false := by
      cases escape : y.isIdleEscape with
      | false => rfl
      | true =>
        have place : x ∈ (before ++ x :: after).filter Notice.isIdleEscape := List.mem_filter.mpr ⟨by simp, idle⟩
        have notBelow : ¬x.arb < y.arb := Nat.not_lt.mpr (ahead y List.mem_cons_self escape)
        rw [Bool.true_and, List.all_eq_false]
        exact ⟨x, place, by simpa using notBelow⟩
    rw [List.cons_append, lastIdleEscape, rest]
    dsimp only
    rw [kept]
    rfl

/-- An ESCAPE that is not being attempted, by its body. -/
theorem Notice.isIdleEscape_iff (n : Notice) : n.isIdleEscape = true ↔ n.attempted = false ∧ ∃ y, n.body = .escape y := by
  obtain ⟨arb, body, attempted⟩ := n
  cases body <;> simp [Notice.isIdleEscape]

/-! ### Timers -/

/-- The HELLO timer at its period requests a HELLO and runs on (R165). -/
theorem State.helloExpiry_due {e : State} {n : Nat} (time : e.station.hello = some n) (limit : 200000 ≤ n) :
    e.helloExpiry = State.requestHello { e with station := { e.station with hello := some (n - 200000) } } := by
  rw [State.helloExpiry, time]
  exact if_pos limit

/-- A HELLO that waits, or is being attempted, keeps another waiting (R141). -/
theorem State.offerHello_waits {s : State} (h : HelloFields)
    (busy : s.link.waiting ≠ none ∨ ∃ x, s.link.queue.find? Notice.isHello = some x ∧ x.attempted = true) :
    s.offerHello h = s.waitHello h := by
  unfold State.offerHello
  dsimp only
  cases waiting : s.link.waiting with
  | some w => exact if_pos rfl
  | none =>
    obtain ⟨x, found, attempted⟩ := busy.resolve_left fun some => some waiting
    rw [found]
    exact (if_neg Bool.false_ne_true).trans (if_pos attempted)

/-- A roster slot replaced, and the mode with the cover station's (R168, R169). -/
theorem State.setRoster_of {s : State} {n : Fin 16} {r : RosterSlot} {m : Mode}
    (cover : s.opts.cover = some n →
      State.modeNow { s with station := { s.station with roster := s.station.roster.set n r } } = m)
    (other : s.opts.cover ≠ some n → s.station.mode = m) :
    s.setRoster n r = { s with station := { s.station with roster := s.station.roster.set n r, mode := m } } := by
  unfold State.setRoster
  by_cases covers : s.opts.cover = some n
  · rw [← cover covers]
    exact if_pos covers
  · rw [← other covers]
    exact if_neg covers

/-- The mode that a cover station's slot gives (R169). -/
def RosterSlot.mode (r : RosterSlot) : Mode :=
  match r.live with
  | some f => if f.station = .running ∧ f.outlet ≠ .unavailable then .assisted else .alone
  | none => .alone

/-- The mode with a cover station is the one its slot gives (R169). -/
theorem State.modeNow_of_cover {s : State} {n : Fin 16} (cover : s.opts.cover = some n) : s.modeNow = s.station.roster[n].mode := by
  unfold State.modeNow
  rw [cover]
  rfl

/-- The mode with the cover station's slot replaced (R169). -/
theorem State.modeNow_of_set {s : State} {n : Fin 16} (cover : s.opts.cover = some n) (r : RosterSlot) :
    State.modeNow { s with station := { s.station with roster := s.station.roster.set n r } } = r.mode := by
  refine (State.modeNow_of_cover (s := { s with station := { s.station with roster := s.station.roster.set n r } }) cover).trans
    (congrArg RosterSlot.mode ?_)
  simp

/-- Settles O44: each timer by its limit, the HELLO by what the queue holds. -/
theorem stationTimersAct : Obligations.StationTimersAct := by
  unfold Obligations.StationTimersAct
  refine ⟨fun l n s e he running => ⟨fun joining time limit => ?joined, fun time limit still => ?silent,
    fun time limit state unmuted => ?hello, fun early time => ?early⟩, fun l n x s e he running silence mode => ⟨fun present limit => ?quiet,
      fun quiet limit => ?absent, fun short => ?notQuiet, fun short => ?notAbsent⟩⟩
  case joined =>
    refine exec_running he running rfl rfl (?_ : e.joiningExpiry = _)
    rw [State.joiningExpiry, joining, time]
    exact if_pos limit
  case silent =>
    refine exec_running he running rfl rfl ((State.helloExpiry_due time limit).trans (if_neg ?_))
    rcases still with h | h | h <;> simp [State.mayRequest, h]
  case early =>
    refine exec_running he running rfl rfl (?_ : e.helloExpiry = _)
    rw [State.helloExpiry, time]
    exact if_neg (Nat.not_le.mpr early)
  case hello =>
    intro h hello q idle with_
    have may : State.mayRequest { e with station := { e.station with hello := some (n - 200000) } } = true := by
      rcases state with h | h <;> simp [State.mayRequest, h, unmuted]
    have run : ∀ t, State.offerHello { e with station := { e.station with hello := some (n - 200000) } } h = t →
        exec (.helloTimerExpiry l) s = .next (handOn e t) := fun t offered =>
      exec_running he running rfl rfl ((State.helloExpiry_due time limit).trans ((if_pos may).trans (offered ▸ rfl)))
    refine ⟨fun busy => ?waits, fun free x found idle => ?replaces, fun free none => ⟨fun room => ?joins, fun full busy => ?full,
      fun before x after full split idle ahead behind => ?displaces⟩⟩
    case waits => exact run _ (State.offerHello_waits h busy)
    case replaces =>
      refine run _ ?_
      unfold State.offerHello
      dsimp only
      rw [free]
      refine (if_neg (by simp)).trans ?_
      rw [show e.link.queue.find? Notice.isHello = some x from found]
      exact if_neg (by simp [idle])
    case joins =>
      refine run _ ((State.offerHello_of_room (s := { e with station := { e.station with hello := some (n - 200000) } })
        h free none room).trans ?_)
      dsimp only
      rw [free]
      rfl
    all_goals
      have found : e.link.queue.find? Notice.isHello = .none := List.find?_eq_none.mpr fun m hm => by simp [none m hm]
      refine run _ ?_
      unfold State.offerHello
      dsimp only
      rw [free, found]
      refine (if_neg (by simp)).trans ((if_neg (Nat.not_lt.mpr full)).trans ?_)
    case full =>
      rw [lastIdleEscape_of_none fun m hm => Bool.eq_false_iff.mpr fun escape => busy m hm (m.isIdleEscape_iff.mp escape)]
      rfl
    case displaces =>
      rw [show e.link.queue = before ++ x :: after from split,
        lastIdleEscape_of_last (x.isIdleEscape_iff.mpr idle) (fun y hy escape => behind y hy (y.isIdleEscape_iff.mp escape))
        fun y hy escape => ahead y hy (y.isIdleEscape_iff.mp escape)]
      dsimp only
      rw [joinQueue_eq_queueWith]
      rfl
  case quiet =>
    refine exec_running he running rfl rfl (?_ : e.quietSlot n = _)
    unfold State.quietSlot
    dsimp only
    rw [present, silence]
    refine (if_pos limit).trans (State.setRoster_of (m := e.station.mode) (fun covers => ?_) fun _ => rfl)
    rw [mode.resolve_left fun other => other covers, State.modeNow_of_cover covers, State.modeNow_of_set covers]
    simp only [RosterSlot.mode, RosterSlot.live, present]
  case absent =>
    refine exec_running he running rfl rfl (?_ : e.absentSlot n = _)
    unfold State.absentSlot
    dsimp only
    rw [quiet, silence]
    refine (if_pos limit).trans (State.setRoster_of (fun covers => ?_) fun other => (if_neg other).symm)
    rw [State.modeNow_of_set covers, if_pos covers]
    rfl
  case notQuiet =>
    refine exec_running he running rfl rfl (?_ : e.quietSlot n = _)
    unfold State.quietSlot
    dsimp only
    rw [silence]
    split
    · rename_i _ present same
      cases same
      exact if_neg (Nat.not_le.mpr (short.resolve_left fun not => not present))
    · rfl
  case notAbsent =>
    refine exec_running he running rfl rfl (?_ : e.absentSlot n = _)
    unfold State.absentSlot
    dsimp only
    rw [silence]
    split
    · rename_i _ quiet same
      cases same
      exact if_neg (Nat.not_le.mpr (short.resolve_left fun not => not quiet))
    · rfl

end Sys2Proof.Machine
end

section
/-! PROOFS. Attempts: their beginning, the arbitration and the latch, and their ends. -/

namespace Sys2Proof.Machine

/-! ### Ends of an attempt -/

/-- Bit k of the ARB byte of a frame: the start bit dominant, then the data bits (R128). -/
theorem TxFrame.bits_arb (f : TxFrame) (k : Nat) (h : k < 10) : f.bits.getD k true = (lineBits f.arb).getD k true := by
  have first := getD_flatMap_lineBits f.bytes 0 f.arb k rfl h
  rwa [Nat.mul_zero, Nat.zero_add] at first

/-- A frame sends ten bits for each byte (R128). -/
theorem TxFrame.length_bits (f : TxFrame) : f.bits.length = 10 * f.bytes.length := by
  have ten : ∀ bs : List Byte, (bs.flatMap lineBits).length = 10 * bs.length := by
    intro bs
    induction bs with
    | nil => rfl
    | cons b bs ih => rw [List.flatMap_cons, List.length_append, ih, List.length_cons, show (lineBits b).length = 10 from rfl]; ring
  exact ten f.bytes

/-- A freed place is taken by a pending HELLO (R141). -/
theorem Link.fillFreed_of {k : Link} {number : Fin 16} {left q : List Notice} (none : k.waiting = none → q = left)
    (some : ∀ h, k.waiting = some h → left.length < 16 ∧ q = queueWith (helloNotice number h) left) :
    Link.fillFreed number { k with queue := left } = { k with queue := q, waiting := .none } := by
  unfold Link.fillFreed
  dsimp only
  cases waiting : k.waiting with
  | none => rw [none waiting]
  | some h =>
    obtain ⟨room, joined⟩ := some h waiting
    rw [joined, ← joinQueue_eq_queueWith]
    exact if_pos room

/-- Settles O38: the bit an attempt breaks at, and what its notice leaves behind. -/
theorem attemptsEnd : Obligations.AttemptsEnd := by
  unfold Obligations.AttemptsEnd
  intro l s e he running
  refine ⟨fun k f left q frame breaks hleft none some => ?breaks, fun n breaking time limit => ?ends,
    fun c left q sending latch hleft none some => ?complete⟩
  case breaks =>
    have may : e.link.mayBreak k = true := by
      have length := f.length_bits
      have bytes : 4 ≤ f.bytes.length := by simp [TxFrame.bytes, checkBytes]
      rcases breaks with ⟨h | h, late, inside⟩ | ⟨h, startBit | ⟨low, high, dominant⟩⟩
      · simp [Link.mayBreak, h, frame, late, length, inside]
      · simp [Link.mayBreak, h, frame, late, length, inside]
      · have start : f.bits.getD 0 true = false := f.bits_arb 0 (by decide)
        simp only [Link.mayBreak, h, frame, startBit, length, start]
        simp
        omega
      · obtain ⟨j, rfl⟩ : ∃ j, k = 1 + j := ⟨k - 1, by omega⟩
        have data : f.bits.getD (1 + j) true = false := by
          rw [f.bits_arb _ (by omega), lineBits_data f.arb ⟨j, by omega⟩, ← dominant]
          exact congrArg f.arb.getLsbD (by simp only; omega)
        simp only [Link.mayBreak, h, frame, length, data]
        simp
        omega
    have dropped : Link.dropAttempted e.station.number e.link = { e.link with queue := q, waiting := .none } := by
      rw [Link.dropAttempted, ← hleft]
      exact Link.fillFreed_of none some
    refine exec_running he running rfl rfl ((if_pos may : e.bitError k = _).trans ?_)
    rw [dropped]
  case ends =>
    refine exec_running he running rfl rfl (congrArg (fun k => ({ e with link := k } : State)) (?_ : Link.breakEnd e.opts.rate e.link = _))
    rw [Link.breakEnd, breaking, time]
    exact if_pos limit
  case complete =>
    have dropped : Link.dropAttempted e.station.number e.link = { e.link with queue := q, waiting := .none } := by
      rw [Link.dropAttempted, ← hleft]
      exact Link.fillFreed_of none some
    refine exec_running he running rfl rfl (congrArg (fun k => ({ e with link := k } : State))
      (?_ : Link.complete e.station.number e.link = _))
    rw [Link.complete, sending, latch]
    dsimp only
    rw [dropped]

/-! ### The beginning of an attempt -/

/-- Counting and a change of the link do not meet. -/
theorem State.bumps_link (c : Counter) : ∀ (n : Nat) (s : State) (k : Link),
    State.bumps c n { s with link := k } = { State.bumps c n s with link := k }
  | 0, _, _ => rfl
  | n + 1, s, k => State.bumps_link c n (s.bump c) k

/-- A PIECE that no listener still waits for is stale (R150). -/
theorem State.dropsAsStale_of {s : State} {n : Notice} {p : PieceNotice} (piece : n.body = .piece p)
    (passed : ∀ f ∈ s.listeners, (f.s : Int) ≤ (s.opts.s : Int) + diff s.belt.count p.lead) : s.dropsAsStale n = true := by
  rw [State.dropsAsStale, piece]
  dsimp only
  rw [State.isStale, Bool.not_eq_true', List.any_eq_false]
  exact fun f listens => by rw [State.position, decide_eq_true_eq]; exact not_lt.mpr (passed f listens)

/-- A queue whose front notices pass a test, and whose next does not, is split there. -/
theorem takeWhile_dropWhile_of {α : Type} {p : α → Bool} {front back : List α} (passes : ∀ x ∈ front, p x = true)
    (stops : ∀ x, back.head? = some x → p x = false) :
    (front ++ back).takeWhile p = front ∧ (front ++ back).dropWhile p = back := by
  have stop : back.takeWhile p = [] ∧ back.dropWhile p = back := by
    cases back with
    | nil => exact ⟨rfl, rfl⟩
    | cons x xs =>
      have not : ¬p x = true := by simp [stops x rfl]
      exact ⟨List.takeWhile_cons_of_neg not, List.dropWhile_cons_of_neg not⟩
  rw [List.takeWhile_append_of_pos passes, List.dropWhile_append_of_pos passes, stop.1, stop.2, List.append_nil]
  exact ⟨rfl, rfl⟩

/-- Settles O36: the stale checks split the queue, and the head notice that is left is attempted. -/
theorem attemptBegins : Obligations.AttemptBegins := by
  unfold Obligations.AttemptBegins
  refine ⟨fun l stale left q w s e d he running idle free station unmuted some split drops fresh kept filled hd => ?begins,
    fun l s e he not running => ?none⟩
  case begins =>
    have may : e.mayAttempt = true := by
      have queue : e.link.queue.isEmpty = false := by simpa using some
      rcases station with h | h <;> simp [State.mayAttempt, State.mayTransmit, Link.busFree, idle, free, h, unmuted, queue]
    have checked : e.staleChecks = d := by
      obtain ⟨gone, rest⟩ := takeWhile_dropWhile_of (p := e.dropsAsStale) (front := stale) (back := left)
        (fun n hn => by
          obtain ⟨p, piece, passed⟩ := drops n hn
          exact State.dropsAsStale_of piece passed)
        (fun n head => State.dropsAsStale_eq_false fun p piece => fresh n p head piece)
      rw [← split] at gone rest
      unfold State.staleChecks
      rw [gone, rest, hd]
      dsimp only
      cases stale with
      | nil =>
        obtain ⟨hq, hw⟩ := kept (.inl rfl)
        have whole : e.link.queue = left := split
        rw [hq, hw, ← whole]
        rfl
      | cons x xs =>
        have leaves : Link.fillFreed e.station.number { e.link with queue := left } = { e.link with queue := q, waiting := w } := by
          cases waiting : e.link.waiting with
          | none =>
            obtain ⟨hq, hw⟩ := kept (.inr waiting)
            rw [Link.fillFreed_of (q := q) (fun _ => hq) (fun h some => by rw [waiting] at some; cases some), hw, waiting]
          | some h =>
            obtain ⟨room, hq, hw⟩ := filled h (by simp) waiting
            rw [Link.fillFreed_of (q := q) (fun none => by rw [waiting] at none; cases none)
              (fun h' some => by rw [waiting] at some; cases some; exact ⟨room, hq⟩), hw]
        rw [leaves]
        exact (State.bumps_link _ _ e _).symm
    have attempt : e.attempt = e.beginAttempt := if_pos may
    have queue : d.link.queue = q := by rw [hd, State.bumps_link]
    refine ⟨fun empty => ?_, fun n rest nonempty => ?_⟩
    · refine exec_running he running rfl rfl (attempt.trans ?_)
      simp only [State.beginAttempt, checked, queue, empty]
    · refine exec_running he running rfl rfl (attempt.trans ?_)
      simp only [State.beginAttempt, checked, queue, nonempty]
      rfl
  case none =>
    refine exec_running he running rfl rfl (if_neg ?_ : e.attempt = e)
    rw [State.mayAttempt_iff]
    rintro ⟨idle, free, may, some⟩
    have bus : 192 ≤ e.link.idle := of_decide_eq_true free
    rcases not with h | h | h | h | h | h
    · exact h idle
    · omega
    · simp [State.mayTransmit, h] at may
    · simp [State.mayTransmit, h] at may
    · simp [State.mayTransmit, h] at may
    · exact some h


/-! ### Start edges -/

/-- A count after samples of a start bit, true recessive: the number of samples of its level in a row (R131, R139). -/
def countOf (row : List Bool) (v : Bool) (old : Nat) : Nat :=
  if row.all fun x => x == v then old + row.length else (row.reverse.takeWhile fun x => x == v).length

/-- The same count of samples as levels. -/
theorem countAfter_map (row : List Bool) (v : Bool) (old : Nat) :
    countAfter (if v then .recessive else .dominant) (row.map fun b => if b then Level.recessive else .dominant) old = countOf row v old := by
  have same : ((fun x : Level => decide (x = if v then .recessive else .dominant)) ∘ fun b : Bool => if b then Level.recessive else .dominant) =
      fun x => x == v := by
    funext b
    cases b <;> cases v <;> rfl
  unfold countAfter countOf
  rw [List.all_map, same, List.length_map, ← List.map_reverse, List.takeWhile_map, same, List.length_map]

/-- The samples of a start bit, read ahead: the level, the counts and the samples read ahead (R131, R139, log 22). -/
theorem Link.readSamples_of (k : Link) (samples : BitVec 10) : k.readSamples samples = { k with
    rx := if samples.getLsbD 9 then .recessive else .dominant
    idle := countOf ((List.range 10).map fun i => samples.getLsbD i) true k.idle
    dominant := countOf ((List.range 10).map fun i => samples.getLsbD i) false k.dominant
    ahead := k.ahead + 10 } := by
  have levels : k.readSamples samples = (((List.range 10).map fun i => samples.getLsbD i).map fun b =>
      if b then Level.recessive else .dominant).foldl (fun k v => k.count v 1) { k with ahead := k.ahead + 10 } := by
    rw [List.foldl_map, List.foldl_map]
    rfl
  rw [levels, Link.foldl_count, ← countAfter_map, ← countAfter_map]
  rfl

/-- The start bit is good when fewer than two of its samples 7, 8 and 9 read recessive (R127). -/
theorem startBitGood_eq (samples : BitVec 10) :
    startBitGood samples = decide (bit (samples.getLsbD 7) + bit (samples.getLsbD 8) + bit (samples.getLsbD 9) < 2) := by
  have sample : ∀ j < 3, (samples.extractLsb' 7 3).getLsbD j = samples.getLsbD (7 + j) := fun j hj => by simp [hj]
  rw [startBitGood, majority, sample 0 (by decide), sample 1 (by decide), sample 2 (by decide)]
  simp only [Nat.reduceAdd, ← Nat.not_le, decide_not]

/-! ### Arbitration and the latch -/

/-- The ARB bits sampled up to a lost one (R133). -/
theorem Link.sampledArb_of {k : Link} {f : TxFrame} (frame : k.frame = some f) (n : Fin 8) :
    k.sampledArb n = ((List.range n.val).map fun j => f.arb.getLsbD (7 - j)) ++ [false] := by
  rw [Link.sampledArb, frame]
  fin_cases n <;> rfl

/-- Where an attempt keeps a notice that is no HELLO, or none waits, the pending HELLO stays (R138, R141). -/
theorem Link.keepAttempted_of_waiting {k : Link}
    (h : k.waiting = none ∨ ∀ n ∈ k.queue, n.attempted = true → n.isHello = false) :
    k.keepAttempted = { k with queue := k.queue.map fun n => { n with attempted := false } } := by
  unfold Link.keepAttempted
  cases hello : k.queue.any fun n => n.attempted && n.isHello with
  | false => exact if_neg Bool.false_ne_true
  | true =>
    obtain ⟨n, hn, both⟩ := List.any_eq_true.mp hello
    obtain ⟨attempted, isHello⟩ := (Bool.and_eq_true _ _).mp both
    have waiting : k.waiting = none := h.resolve_right fun no => by
      rw [no n hn attempted] at isHello
      cases isHello
    rw [if_pos rfl, waiting]
    congr 1
    refine List.map_congr_left fun m _ => ?_
    obtain ⟨arb, body, attempted⟩ := m
    cases attempted <;> rfl

/-- A HELLO that an attempt keeps takes the pending HELLO's content (R138, R141). -/
theorem Link.keepAttempted_of_hello {k : Link} {h : HelloFields} {n : Notice} (waiting : k.waiting = some h) (hn : n ∈ k.queue)
    (attempted : n.attempted = true) (hello : n.isHello = true) :
    k.keepAttempted = { k with
      queue := k.queue.map fun n => if n.attempted then { n with attempted := false, body := .hello h } else n, waiting := none } := by
  have any : (k.queue.any fun n => n.attempted && n.isHello) = true :=
    List.any_eq_true.mpr ⟨n, hn, by rw [attempted, hello]; rfl⟩
  unfold Link.keepAttempted
  rw [any, if_pos rfl, waiting]
  rfl

/-- The latch of a sender (R133, R134). -/
theorem Link.latchCount_of_won {k : Link} (fresh : k.latch = none) (won : k.state = .arbitrating ∨ k.state = .sending) (s : Nat)
    (count : Count) : k.latchCount s count = { k.win with latch := some count, frame := k.filledFrame s count } := by
  unfold Link.latchCount
  rcases won with h | h <;> rw [fresh, h]

/-- The frame of a sender at its latch, the line position of a PIECE filled (R134, R149). -/
theorem Link.filledFrame_of {k : Link} {f : TxFrame} {n : Notice} (frame : k.frame = some f)
    (attempt : k.queue.find? (fun n => n.attempted) = some n) (s : Nat) (count : Count) : k.filledFrame s count =
      some (match n.body with
        | .piece p => { f with payload := piecePayload p (shift (BitVec.ofNat 24 s) (diff count p.lead)) }
        | .hello _ | .escape _ => f) := by
  have attempted : k.attempted = some n := attempt
  obtain ⟨arb, body, done⟩ := n
  unfold Link.filledFrame
  rw [attempted, frame]
  cases body <;> rfl

/-- Settles O37: the edge and its samples, the lost bit and what is kept, the latch, and the byte read with the bits kept. -/
theorem startAndArbitration : Obligations.StartAndArbitration := by
  unfold Obligations.StartAndArbitration
  refine ⟨fun l samples s e he running => ⟨fun idle dominant recessive => ?edge, fun not => ?noEdge⟩,
    fun l s e he running => ⟨fun k f arbitrating frame recessive => ?lost,
      fun fresh receiving => ?heard, fun f n time fresh frame won attempt => ?latched⟩, fun k b rest => ?reads⟩
  case edge =>
    refine exec_running he running rfl rfl (congrArg (fun k => ({ e with link := k } : State)) (?_ : e.link.startEdge samples = _))
    have sees : e.link.seesEdge samples = true := by
      rw [Link.seesEdge, dominant, decide_eq_true recessive]; rfl
    refine (if_pos ⟨idle, sees⟩).trans ?_
    dsimp only
    rw [Link.readSamples_of, startBitGood_eq]
    have accepts : (listenCount ≤ e.link.idle ∧
        decide (bit (samples.getLsbD 7) + bit (samples.getLsbD 8) + bit (samples.getLsbD 9) < 2) = true) ↔
        (decide (176 ≤ e.link.idle) && decide (bit (samples.getLsbD 7) + bit (samples.getLsbD 8) + bit (samples.getLsbD 9) < 2)) = true := by
      simp only [Bool.and_eq_true, decide_eq_true_eq, listenCount]
    cases accepted : (decide (176 ≤ e.link.idle) && decide (bit (samples.getLsbD 7) + bit (samples.getLsbD 8) + bit (samples.getLsbD 9) < 2)) with
    | true => exact if_pos (accepts.mpr accepted)
    | false =>
      refine (if_neg fun h => Bool.false_ne_true (accepted.symm.trans (accepts.mp h))).trans ?_
      rw [← idle]
      rfl

  case noEdge =>
    refine exec_running he running rfl rfl (congrArg (fun k => ({ e with link := k } : State)) (if_neg ?_ : e.link.startEdge samples = _))
    rintro ⟨idle, sees⟩
    rcases not with h | h | h
    · exact h idle
    · rw [Link.seesEdge, h] at sees; cases sees
    · simp [Link.seesEdge, h] at sees
  case lost =>
    have bit : e.link.arbBit k = true := by rw [Link.arbBit, frame]; exact recessive
    have lose : e.link.lose k = { e.link.keepAttempted with
        state := .receiving, frame := none, arbTime := none, arbRead := e.link.sampledArb k, latch := none } := if_pos ⟨arbitrating, bit⟩
    rw [Link.sampledArb_of frame] at lose
    intro lost
    refine ⟨fun stays => ?_, fun h n waiting hn attempted hello => ?_⟩
    · rw [Link.keepAttempted_of_waiting stays] at lose
      exact exec_running he running rfl rfl (congrArg (fun k => ({ e with link := k } : State)) lose)
    · rw [Link.keepAttempted_of_hello waiting hn attempted hello] at lose
      exact exec_running he running rfl rfl (congrArg (fun k => ({ e with link := k } : State)) lose)
  case heard =>
    refine exec_running he running rfl rfl (congrArg (fun k => ({ e with link := k } : State))
      (?_ : e.link.latchCount e.opts.s e.belt.count = _))
    simp only [Link.latchCount, fresh, receiving]
  case latched =>
    refine exec_running he running rfl rfl (congrArg (fun k => ({ e with link := k } : State))
      (?_ : e.link.latchCount e.opts.s e.belt.count = _))
    rw [Link.latchCount_of_won fresh (won.imp And.left And.left), Link.filledFrame_of frame attempt]
    rcases won with ⟨state, rfl⟩ | ⟨state, rfl⟩
    · rw [show e.link.win = { e.link with state := .sending, arbTime := none } from if_pos state] <;> rfl
    · rw [show e.link.win = e.link from if_neg (by simp [state]), ← state] <;> rfl
  case reads =>
    refine ⟨fun empty => Link.reads_of_none empty _, fun some => ⟨_, if_neg (by simpa using some), rfl, ?_, fun i => ?_⟩⟩
    · simp
    · refine ⟨fun v read => ?_, fun past => ?_⟩
      · simp [read]
      · simp [past]

end Sys2Proof.Machine
end

section
/-! PROOFS. Received HELLOs and PIECEs, and a frame with the station's own number. -/

namespace Sys2Proof.Machine

/-! ### The link after the end of a reception -/

/-- Offering a HELLO leaves the link's state and its idle count (R141). -/
theorem State.offerHello_idle (s : State) (h : HelloFields) :
    (s.offerHello h).link.state = s.link.state ∧ (s.offerHello h).link.idle = s.link.idle := by
  unfold State.offerHello State.waitHello
  dsimp only
  split
  · exact ⟨rfl, rfl⟩
  · split
    · split <;> exact ⟨rfl, rfl⟩
    · split
      · exact ⟨rfl, rfl⟩
      · split <;> exact ⟨rfl, rfl⟩

/-- The announcement that follows an event leaves the link's state and its idle count (R165). -/
theorem announce_idle (b a : State) :
    (announce b a).link.state = a.link.state ∧ (announce b a).link.idle = a.link.idle := by
  unfold announce State.requestHello
  split
  · split
    · exact a.offerHello_idle _
    · exact ⟨rfl, rfl⟩
  · exact ⟨rfl, rfl⟩

/-- The stale checks leave the link's state (R150). -/
theorem State.staleChecks_state (s : State) : s.staleChecks.link.state = s.link.state := by
  obtain ⟨v, counted⟩ := State.bumps_eq .txStale (s.link.queue.takeWhile s.dropsAsStale).length s
  unfold State.staleChecks
  dsimp only
  rw [counted]
  split
  · rfl
  · unfold Link.fillFreed
    split
    · split <;> rfl
    · rfl

/-- A link in IDLE stays so, or begins an attempt on a free bus (R132). -/
theorem State.attempt_of_idle {s : State} (idle : s.link.state = .idle) :
    s.attempt.link.state = .idle ∨
      (192 ≤ s.link.idle ∧ s.attempt.link.state = .arbitrating ∧ s.attempt.link.queue ≠ []) := by
  unfold State.attempt
  split
  case isTrue may =>
    have free : 192 ≤ s.link.idle := of_decide_eq_true (s.mayAttempt_iff.mp may).2.1
    unfold State.beginAttempt
    dsimp only
    split
    · exact .inl (s.staleChecks_state.trans idle)
    · exact .inr ⟨free, rfl, by simp⟩
  case isFalse => exact .inl idle

/-- After the end of a reception the link is in IDLE, or has begun an attempt on a free bus (R132, R136). -/
theorem handOn_of_reception {e a : State} (receiving : e.link.state = .receiving) (idle : a.link.state = .idle)
    (count : a.link.idle = e.link.idle) :
    (e.link.idle < 192 → (handOn e a).link.state = .idle) ∧
      (192 ≤ e.link.idle → (handOn e a).link.state = .idle ∨
        ((handOn e a).link.state = .arbitrating ∧ (handOn e a).link.queue ≠ [])) := by
  obtain ⟨k, v, c, shape, ⟨link, -⟩, -⟩ := handOn_shape e a
  obtain ⟨o, g, r, begun, -⟩ := blockIfBegun_eq e a
  have before : e.mayAttempt = false := by simp [State.mayAttempt, receiving]
  rw [attemptIfReady_of_ready before] at link
  obtain ⟨state, same⟩ := announce_idle e (attend e (blockIfBegun e a))
  have isIdle : (announce e (attend e (blockIfBegun e a))).link.state = .idle := by rw [state, attend_link, begun, idle]
  have isCount : (announce e (attend e (blockIfBegun e a))).link.idle = e.link.idle := by rw [same, attend_link, begun, count]
  have done : (handOn e a).link = k := by rw [shape]
  rw [done, link, ← isCount]
  rcases State.attempt_of_idle isIdle with h | ⟨free, h⟩
  · exact ⟨fun _ => h, fun _ => .inl h⟩
  · exact ⟨fun early => absurd free (Nat.not_le.mpr early), fun _ => .inr h⟩

/-! ### HELLOs -/

/-- A slot counts in a question when it is PRESENT or QUIET, with its fields (R170). -/
theorem RosterSlot.live_eq_some (r : RosterSlot) (f : HelloFields) :
    r.live = some f ↔ (r.state = .present ∨ r.state = .quiet) ∧ r.fields = some f := by
  unfold RosterSlot.live
  cases r.state <;> simp

/-- The mode that a slot gives is ASSISTED while it counts, announces RUNNING, and its outlets are not UNAVAILABLE (R169). -/
theorem RosterSlot.mode_eq_assisted (r : RosterSlot) : r.mode = .assisted ↔ ∃ f, r.live = some f ∧ f.station = .running ∧
    f.outlet ≠ .unavailable := by
  unfold RosterSlot.mode
  cases r.live with
  | none => simp
  | some f => by_cases h : f.station = .running ∧ f.outlet ≠ .unavailable <;> simp [h]

/-- A slot of another number that has taken a HELLO (R167, R168). -/
theorem RosterSlot.takeHello_heard {r : RosterSlot} (other : r.state ≠ .self) (step : Nat) (h : HelloFields) :
    r.heard.takeHello step h = ⟨if h.step = step then .present else .mismatch, some h, some 0⟩ := by
  obtain ⟨state, fields, silence⟩ := r
  cases state <;> simp_all [RosterSlot.heard, RosterSlot.takeHello]

/-- A HELLO that is heard and taken: its sender's slot, and the mode with the cover station's (R152, R167, R168, R169). -/
theorem State.takeHello_of_heard {u : State} {n : Fin 16} {payload : List Byte} {h : HelloFields}
    (other : u.station.roster[n].state ≠ .self) (read : helloOfPayload payload = some h) {r : RosterSlot}
    (slot : r = ⟨if h.step = u.opts.stepCode then .present else .mismatch, some h, some 0⟩) :
    (u.hear n).takeHello n payload = { u with station := { u.station with
      roster := u.station.roster.set n r, mode := if u.opts.cover = some n then r.mode else u.station.mode } } := by
  obtain ⟨m, heard, keeps, -⟩ := u.setRoster_eq n u.station.roster[n].heard
  replace heard : u.hear n = _ := heard
  have filled : (u.station.roster.set n u.station.roster[n].heard)[n].takeHello u.opts.stepCode h = r := by
    rw [slot, ← RosterSlot.takeHello_heard other]
    simp
  rw [heard, State.takeHello, read]
  dsimp only
  rw [filled, State.setRoster_of (m := if u.opts.cover = some n then r.mode else u.station.mode)]
  · simp
  · intro covers
    rw [if_pos covers]
    exact State.modeNow_of_set (s := { u with station := { u.station with roster := _, mode := m } }) covers r
  · intro notCover
    rw [if_neg notCover]
    exact keeps notCover

/-- Settles O41: the mode by the cover station's slot, and the slot that a HELLO fills. -/
theorem helloFillsRoster : Obligations.HelloFillsRoster := by
  unfold Obligations.HelloFillsRoster
  refine ⟨fun u => ?mode, fun l rx arb kl payload latch h n s e he running receiving latched valid kind sender other notSelf read => ?fills⟩
  case mode =>
    cases cover : u.opts.cover with
    | none => simp [State.modeNow, cover]
    | some c =>
      rw [State.modeNow_of_cover cover, RosterSlot.mode_eq_assisted]
      simp only [RosterSlot.live_eq_some]
      constructor
      · rintro ⟨f, ⟨live, fields⟩, runs, available⟩
        exact .inr ⟨c, f, rfl, live, fields, runs, available⟩
      · rintro (none | ⟨c', f, same, live, fields, runs, available⟩)
        · cases none
        · cases same
          exact ⟨f, ⟨live, fields⟩, runs, available⟩
  case fills =>
    have act := State.validFrame_of_other receiving latched valid sender other
    have runs : exec (.validFrame l rx) s = _ := exec_running he running rfl rfl act
    obtain ⟨r, slot⟩ : ∃ r : RosterSlot, r = ⟨if h.step = e.opts.stepCode then .present else .mismatch, some h, some 0⟩ := ⟨_, rfl⟩
    have taken := State.takeHello_of_heard (u := e.endReception) notSelf read slot
    have dispatched : e.endReception.dispatch n (kindOf kl) payload latch = (e.endReception.hear n).takeHello n payload := by
      rw [kind]; rfl
    rw [dispatched, taken] at runs
    have slotMode : r.mode = if h.step = e.opts.stepCode ∧ h.station = .running ∧ h.outlet ≠ .unavailable then .assisted else .alone := by
      rw [slot]
      by_cases step : h.step = e.opts.stepCode <;> simp [RosterSlot.mode, RosterSlot.live, step]
    generalize made : ({ e.endReception with station := { e.endReception.station with
      roster := e.endReception.station.roster.set n r
      mode := if e.endReception.opts.cover = some n then r.mode else e.endReception.station.mode } } : State) = a at runs
    obtain ⟨idle, free⟩ := handOn_of_reception (a := a) receiving (by rw [← made]; rfl) (by rw [← made]; rfl)
    have still : e.blocked = true ∨ a.blocked = false := by
      have same : a.blocked = e.blocked := by rw [← made]; rfl
      rw [same]
      exact Bool.eq_false_or_eq_true e.blocked
    obtain ⟨noBits, noLatch⟩ := handOn_holdsNoFrame still (by rw [← made]; exact ⟨rfl, rfl⟩)
    refine ⟨_, runs, ?_, fun covers => ?_, fun notCover => ?_, ?_, ?_, ?_, noLatch, noBits, idle, free, ?_, ?_, ?_, ?_, ?_, ?_,
      fun c dropped stale => ?_⟩
    · rw [handOn_station, ← made, ← slot]; rfl
    · rw [handOn_station, ← made, ← slotMode]; exact if_pos covers
    · rw [handOn_station, ← made]; exact if_neg notCover
    · rw [handOn_station, ← made]; rfl
    · rw [handOn_station, ← made]; rfl
    · rw [handOn_station, ← made]; rfl
    · rw [handOn_rxQueue, ← made]; rfl
    · rw [handOn_belt, ← made]; rfl
    · rw [handOn_scan, ← made]; rfl
    · rw [handOn_former, ← made]; rfl
    · rw [handOn_outlets still, ← made]; rfl
    · rw [handOn_slots, ← made]; rfl
    · rw [handOn_counter _ _ dropped stale, ← made]; rfl

/-! ### PIECEs -/

/-- Two bytes of a payload as a number (section 9.2). -/
theorem payloadNum_two {p : List Byte} {k : Nat} (inside : k + 2 ≤ p.length) :
    payloadNum p k 2 = 256 * (p.getD k 0).toNat + (p.getD (k + 1) 0).toNat := by
  have bytes : (p.drop k).take 2 = [p.getD k 0, p.getD (k + 1) 0] := by
    refine List.ext_getElem (by simp; omega) fun i h1 h2 => ?_
    have small : i < 2 := by simpa using h2
    interval_cases i <;> simp [List.getD, show k < p.length by omega, show k + 1 < p.length by omega]
  rw [payloadNum, bytes]
  simp only [numOf, List.foldl]
  ring

/-- Three bytes of a payload as a number (section 9.2). -/
theorem payloadNum_three {p : List Byte} {k : Nat} (inside : k + 3 ≤ p.length) :
    payloadNum p k 3 = 65536 * (p.getD k 0).toNat + 256 * (p.getD (k + 1) 0).toNat + (p.getD (k + 2) 0).toNat := by
  have bytes : (p.drop k).take 3 = [p.getD k 0, p.getD (k + 1) 0, p.getD (k + 2) 0] := by
    refine List.ext_getElem (by simp; omega) fun i h1 h2 => ?_
    have small : i < 3 := by simpa using h2
    interval_cases i <;> simp [List.getD, show k < p.length by omega, show k + 1 < p.length by omega,
      show k + 2 < p.length by omega]
  rw [payloadNum, bytes]
  simp only [numOf, List.foldl]
  ring

/-- The content test of a PIECE by its bytes (R152). -/
def PieceMalformed (p : List Byte) : Prop :=
  5 < (p.getD 12 0).toNat % 8 ∨ 6 < (p.getD 13 0).toNat % 8 ∨ 256 * (p.getD 5 0).toNat + (p.getD 6 0).toNat = 0 ∨
    256 * (p.getD 10 0).toNat + (p.getD 11 0).toNat = 0 ∨ 8160 < 256 * (p.getD 10 0).toNat + (p.getD 11 0).toNat ∨
    (p.getD 8 0).toNat % 32 < (p.getD 7 0).toNat % 32 ∨ (p.getD 9 0).toNat % 32 < (p.getD 7 0).toNat % 32 ∨
    (p.getD 8 0).toNat % 32 < (p.getD 9 0).toNat % 32

/-- The receive record of a PIECE by its bytes (R156, section 9.2). -/
def pieceRecord (p : List Byte) (n : Fin 16) (senderS : Nat) (c : PieceClass) (v : Verdict) (latch : Count) : ReceiveRecord :=
  { station := n, s := senderS, tag := BitVec.ofNat 12 (16 * (p.getD 0 0).toNat + (p.getD 1 0).toNat / 16)
    flags := { long := decide ((p.getD 1 0).toNat / 2 ^ 3 % 2 = 1), continued := decide ((p.getD 1 0).toNat / 2 ^ 2 % 2 = 1)
               edge := decide ((p.getD 1 0).toNat / 2 ^ 1 % 2 = 1), coilOnly := decide ((p.getD 1 0).toNat / 2 ^ 0 % 2 = 1) }
    linepos := BitVec.ofNat 24 (65536 * (p.getD 2 0).toNat + 256 * (p.getD 3 0).toNat + (p.getD 4 0).toNat)
    length := 256 * (p.getD 5 0).toNat + (p.getD 6 0).toNat, first := (p.getD 7 0).toNat % 32, last := (p.getD 8 0).toNat % 32
    centroid := (p.getD 9 0).toNat % 32, area := 256 * (p.getD 10 0).toNat + (p.getD 11 0).toNat, cls := c, verdict := v
    latch := latch }

/-- The verdicts in the order of their codes, none above 6 (section 9.2). -/
theorem Verdict.ofCode_eq_getElem? (k : Nat) :
    Verdict.ofCode k = [Verdict.passed, .ejected, .removed, .trimmed, .denied, .late, .carried][k]? := by
  match k with
  | 0 | 1 | 2 | 3 | 4 | 5 | 6 => rfl
  | _ + 7 => rfl

/-- The flags of a byte, bit by bit. -/
theorem PieceFlags.ofByte_eq (b : Byte) : PieceFlags.ofByte b =
    { long := decide (b.toNat / 2 ^ 3 % 2 = 1), continued := decide (b.toNat / 2 ^ 2 % 2 = 1)
      edge := decide (b.toNat / 2 ^ 1 % 2 = 1), coilOnly := decide (b.toNat / 2 ^ 0 % 2 = 1) } := by
  simp only [PieceFlags.ofByte, BitVec.getLsbD, Nat.testBit_eq_decide_div_mod_eq]

/-- A payload of 14 bytes reads as the record of its bytes, unless it is malformed (R152, R156). -/
theorem recordOfPayload_of {p : List Byte} (length : p.length = 14) (n : Fin 16) (senderS : Nat) (latch : Count) :
    (PieceMalformed p → recordOfPayload p n senderS latch = none) ∧
      (¬PieceMalformed p → ∃ c v, PieceClass.ofCode ((p.getD 12 0).toNat % 8) = some c ∧
        Verdict.ofCode ((p.getD 13 0).toNat % 8) = some v ∧
        recordOfPayload p n senderS latch = some (pieceRecord p n senderS c v latch)) := by
  have tag : payloadNum p 0 2 / 16 = 16 * (p.getD 0 0).toNat + (p.getD 1 0).toNat / 16 := by
    rw [payloadNum_two (by omega), Nat.zero_add]; omega
  have read : recordOfPayload p n senderS latch =
      match PieceClass.ofCode ((p.getD 12 0).toNat % 8), Verdict.ofCode ((p.getD 13 0).toNat % 8) with
      | some c, some v =>
        if (pieceRecord p n senderS c v latch).length = 0 ∨ (pieceRecord p n senderS c v latch).area = 0 ∨
            8160 < (pieceRecord p n senderS c v latch).area ∨
            (pieceRecord p n senderS c v latch).last < (pieceRecord p n senderS c v latch).first ∨
            (pieceRecord p n senderS c v latch).centroid < (pieceRecord p n senderS c v latch).first ∨
            (pieceRecord p n senderS c v latch).last < (pieceRecord p n senderS c v latch).centroid then none
        else some (pieceRecord p n senderS c v latch)
      | _, _ => none := by
    unfold recordOfPayload
    rw [tag, payloadNum_three (by omega), payloadNum_two (by omega), payloadNum_two (by omega), PieceFlags.ofByte_eq]
    rfl
  rw [read]
  cases cls : PieceClass.ofCode ((p.getD 12 0).toNat % 8) with
  | none =>
    rw [PieceClass.ofCode_eq_getElem?, List.getElem?_eq_none_iff] at cls
    exact ⟨fun _ => rfl, fun good => absurd (.inl cls) good⟩
  | some c =>
    have inClass : ¬5 < (p.getD 12 0).toNat % 8 := fun above => by
      rw [PieceClass.ofCode_eq_getElem?, List.getElem?_eq_none (by exact above)] at cls
      cases cls
    cases verdict : Verdict.ofCode ((p.getD 13 0).toNat % 8) with
    | none =>
      rw [Verdict.ofCode_eq_getElem?, List.getElem?_eq_none_iff] at verdict
      exact ⟨fun _ => rfl, fun good => absurd (.inr (.inl verdict)) good⟩
    | some v =>
      have inVerdict : ¬6 < (p.getD 13 0).toNat % 8 := fun above => by
        rw [Verdict.ofCode_eq_getElem?, List.getElem?_eq_none (by exact above)] at verdict
        cases verdict
      refine ⟨fun bad => if_pos ((bad.resolve_left inClass).resolve_left inVerdict), fun good => ⟨c, v, rfl, rfl, if_neg fun bad => ?_⟩⟩
      exact good (.inr (.inr bad))

/-- A slot heard counts when it was PRESENT or QUIET (R168, R170). -/
theorem RosterSlot.live_heard (r : RosterSlot) :
    r.heard.live = if r.state = .present ∨ r.state = .quiet then r.fields else none := by
  obtain ⟨state, fields, silence⟩ := r
  cases state <;> rfl

/-- What stands after an event that ended the reception at e, heard number n, and left a receive queue and counters. -/
theorem handOn_heard {e a : State} {n : Fin 16} {q : List ReceiveRecord} {v : Vector (BitVec 32) 78}
    (ha : a = { e.endReception.hear n with rxQueue := q, counters := v }) :
    (handOn e a).station.roster = e.station.roster.set n e.station.roster[n].heard ∧
      (e.opts.cover = some n → (handOn e a).station.mode = (handOn e a).modeNow) ∧
      (e.opts.cover ≠ some n → (handOn e a).station.mode = e.station.mode) ∧ (handOn e a).rxQueue = q ∧
      (handOn e a).belt = e.belt ∧ (handOn e a).former = e.former ∧ (handOn e a).table.slots = e.table.slots := by
  obtain ⟨m, heard, otherMode, coverMode⟩ := e.endReception.setRoster_eq n e.station.roster[n].heard
  replace heard : e.endReception.hear n = _ := heard
  have roster : (handOn e a).station.roster = e.station.roster.set n e.station.roster[n].heard := by
    rw [handOn_station, ha, heard]; rfl
  have mode : (handOn e a).station.mode = m := by rw [handOn_station, ha, heard]
  have opts : (handOn e a).opts = e.opts := by rw [handOn_opts, ha, heard]; rfl
  have after : (e.endReception.hear n).modeNow = (handOn e a).modeNow :=
    State.modeNow_congr (by rw [opts, heard]; rfl) (by rw [roster, heard]; rfl)
  refine ⟨roster, fun covers => mode.trans ((coverMode covers).trans after), fun notCover => mode.trans (otherMode notCover), ?_, ?_, ?_, ?_⟩
  · rw [handOn_rxQueue, ha]
  · rw [handOn_belt, ha, heard]; rfl
  · rw [handOn_former, ha, heard]; rfl
  · rw [handOn_slots, ha, heard]; rfl

/-- The filter of a PIECE changes the receive queue or a counter alone (R155, R156). -/
theorem State.takePiece_shape (u : State) (n : Fin 16) (payload : List Byte) (latch : Count) :
    ∃ q v, u.takePiece n payload latch = { u with rxQueue := q, counters := v } := by
  have offer : ∀ r : ReceiveRecord, ∃ q v, u.offerRecord r = { u with rxQueue := q, counters := v } := by
    intro r
    unfold State.offerRecord
    split
    · exact ⟨_, u.counters, rfl⟩
    · exact ⟨u.rxQueue, _, rfl⟩
  unfold State.takePiece
  split
  · exact ⟨u.rxQueue, u.counters, rfl⟩
  · split
    · exact ⟨u.rxQueue, _, rfl⟩
    · split
      · exact ⟨u.rxQueue, _, rfl⟩
      · split
        · exact offer _
        · exact ⟨u.rxQueue, _, rfl⟩

/-- The filter of a PIECE on a station that takes PIECEs, test by test (R152, R155). -/
theorem State.takePiece_of_taking {u : State} (taking : u.station.state = .running ∨ u.station.state = .paused) {payload : List Byte}
    (length : payload.length = 14) (n : Fin 16) (latch : Count) :
    (PieceMalformed payload → u.takePiece n payload latch = u.bump .noticeMalformed) ∧
      (¬PieceMalformed payload →
        (u.station.roster[n].live = none → u.takePiece n payload latch = u.bump .noticeIgnored) ∧
        ∀ f, u.station.roster[n].live = some f →
          (u.inReach f.s = false → u.takePiece n payload latch = u.bump .noticeIgnored) ∧
          (u.inReach f.s = true → ∃ c v, PieceClass.ofCode ((payload.getD 12 0).toNat % 8) = some c ∧
            Verdict.ofCode ((payload.getD 13 0).toNat % 8) = some v ∧
            u.takePiece n payload latch = u.offerRecord (pieceRecord payload n f.s c v latch))) := by
  obtain ⟨bad, good⟩ := recordOfPayload_of length n 0 latch
  have running : ¬(u.station.state = .setup ∨ u.station.state = .joining) := by rcases taking with h | h <;> simp [h]
  have past : u.takePiece n payload latch = (match recordOfPayload payload n 0 latch with
    | none => u.bump .noticeMalformed
    | some r =>
      match u.station.roster[n].live with
      | none => u.bump .noticeIgnored
      | some f => if u.inReach f.s then u.offerRecord { r with s := f.s } else u.bump .noticeIgnored) := if_neg running
  rw [past]
  refine ⟨fun malformed => by rw [bad malformed], fun wellFormed => ?_⟩
  obtain ⟨c, v, cls, verdict, read⟩ := good wellFormed
  rw [read]
  refine ⟨fun none => by rw [none], fun f live => ?_⟩
  rw [live]
  exact ⟨fun out => if_neg (Bool.eq_false_iff.mp out), fun inside => ⟨c, v, cls, verdict, if_pos inside⟩⟩

/-- Settles O43: the filter of a PIECE by its tests in order, and the own number by the mute flag. -/
theorem piecesAndOwnNumber : Obligations.PiecesAndOwnNumber := by
  unfold Obligations.PiecesAndOwnNumber
  refine ⟨fun l rx arb kl payload latch n s e he running receiving latched valid kind sender other => ?piece,
    fun l rx arb kl payload latch s e he running receiving latched valid own => ?own⟩
  case piece =>
    have act := State.validFrame_of_other receiving latched valid sender other
    have runs : exec (.validFrame l rx) s = _ := exec_running he running rfl rfl act
    have dispatched : e.endReception.dispatch n (kindOf kl) payload latch = (e.endReception.hear n).takePiece n payload latch := by
      rw [show kindOf kl = 2 from kind]; rfl
    rw [dispatched] at runs
    have length : payload.length = 14 := by
      have known := receive_valid_length valid
      rw [show kindOf kl = 2 from kind] at known
      exact (Option.some.inj known).symm
    obtain ⟨q, v, shape⟩ := (e.endReception.hear n).takePiece_shape n payload latch
    obtain ⟨roster, coverMode, otherMode, -, belt, former, slots⟩ := handOn_heard shape
    rw [RosterSlot.heard_eq] at roster
    obtain ⟨m, heard, -⟩ := e.endReception.setRoster_eq n e.station.roster[n].heard
    replace heard : e.endReception.hear n = _ := heard
    generalize hu : e.endReception.hear n = u at *
    obtain ⟨opts, state, live, queue, counters⟩ : u.opts = e.opts ∧ u.station.state = e.station.state ∧
        u.station.roster[n].live = e.station.roster[n].heard.live ∧ u.rxQueue = e.rxQueue ∧ u.counters = e.counters := by
      rw [heard]
      exact ⟨rfl, rfl, by simp, rfl, rfl⟩
    rw [RosterSlot.live_heard] at live
    have sameCounter : ∀ c, u.counter c = e.counter c := fun c => congrArg (fun v : Vector (BitVec 32) 78 => v[c.index]) counters
    refine ⟨_, runs, belt, former, slots, ?_⟩
    intro others counts slot byte flag first last centroid length' area malformed
    have counted : ∀ k : Counter, k ≠ .txDropped → k ≠ .txStale → u.takePiece n payload latch = u.bump k → counts k := by
      intro k dropped stale taken
      refine ⟨?_, ?_, fun c other dropped stale => ?_⟩
      · rw [handOn_rxQueue, taken, ← queue]; rfl
      · rw [handOn_counter _ _ dropped stale, taken, State.counter_bump, sameCounter]
      · rw [handOn_counter _ _ dropped stale, taken, State.counter_bump_of_ne _ other, sameCounter]
    refine ⟨roster, coverMode, otherMode, fun early => ?early, fun taking => ?taking⟩
    case early =>
      have taken : u.takePiece n payload latch = u := if_pos (by rw [state]; exact early)
      refine ⟨by rw [handOn_rxQueue, taken, queue], fun c _ dropped stale => ?_⟩
      rw [handOn_counter _ _ dropped stale, taken, sameCounter]
    case taking =>
      obtain ⟨bad, good⟩ := State.takePiece_of_taking (u := u) (by rw [state]; exact taking) length n latch
      refine ⟨fun h => counted _ nofun nofun (bad h), fun h => ?_⟩
      obtain ⟨ignored, reached⟩ := good h
      refine ⟨fun notPresent notQuiet => counted _ nofun nofun (ignored ?_), fun f heardState fields => ?_⟩
      · rw [live, if_neg (not_or.mpr ⟨notPresent, notQuiet⟩)]
      obtain ⟨out, inside⟩ := reached f (by rw [live, if_pos heardState]; exact fields)
      refine ⟨fun far => counted _ nofun nofun (out ?_), fun low high => ?_⟩
      · rw [State.inReach, opts, Bool.and_eq_false_iff, decide_eq_false_iff_not, decide_eq_false_iff_not]
        omega
      obtain ⟨c, v, cls, verdict, taken⟩ := inside (by rw [State.inReach, opts, decide_eq_true low, decide_eq_true high]; rfl)
      refine ⟨fun c' v' room cls' verdict' => ?_, fun full => counted _ nofun nofun (taken.trans (if_neg ?_))⟩
      · rw [PieceClass.ofCode_eq_getElem?] at cls
        rw [Verdict.ofCode_eq_getElem?] at verdict
        obtain rfl : c = c' := Option.some.inj (cls.symm.trans cls')
        obtain rfl : v = v' := Option.some.inj (verdict.symm.trans verdict')
        have joined : u.takePiece n payload latch = { u with rxQueue := u.rxQueue ++ [pieceRecord payload n f.s c v latch] } :=
          taken.trans (if_pos (by rw [queue]; exact room))
        refine ⟨by rw [handOn_rxQueue, joined, queue]; rfl, fun k _ dropped stale => ?_⟩
        rw [handOn_counter _ _ dropped stale, joined, ← sameCounter]
        rfl
      · rw [queue]; omega
  case own =>
    have named : arbStation arb = e.station.number := Fin.ext own
    refine exec_running he running rfl rfl (?_ : e.validFrame rx = _)
    simp only [State.validFrame, receiving, latched, valid, State.takeFrame, named, if_true]
    rfl

end Sys2Proof.Machine
end

section
/-! PROOFS. The table's arbiter, settlement and the notices it requests. -/

namespace Sys2Proof.Machine

/-! ### Notices requested -/

/-- The listening set: PRESENT or QUIET slots with a greater S (R150, R170). -/
theorem State.mem_listeners_iff (s : State) (f : HelloFields) : f ∈ s.listeners ↔ s.opts.s < f.s ∧ ∃ n : Fin 16,
    (s.station.roster[n].state = .present ∨ s.station.roster[n].state = .quiet) ∧ s.station.roster[n].fields = some f := by
  simp only [← RosterSlot.live_eq_some, State.listeners, List.mem_filterMap, List.mem_finRange, true_and]
  constructor
  · rintro ⟨n, chosen⟩
    split at chosen
    · rename_i g live
      split at chosen
      · cases chosen
        exact ⟨‹_›, n, live⟩
      · cases chosen
    · cases chosen
  · rintro ⟨greater, n, live⟩
    exact ⟨n, by rw [live]; exact if_pos greater⟩

/-- A notice joins behind every notice of lower or equal ARB, or is dropped and counted at a full queue (R140, R141). -/
theorem State.offerNotice_eq (s : State) (arb : Nat) (body : Body) :
    (s.link.queue.length < 16 → s.offerNotice arb body =
      { s with link := { s.link with queue := queueWith ⟨arb, body, false⟩ s.link.queue } }) ∧
    (16 ≤ s.link.queue.length → s.offerNotice arb body = s.bump .txDropped) := by
  rw [State.offerNotice, joinQueue_eq_queueWith]
  exact ⟨fun room => if_pos room, fun full => if_neg (Nat.not_lt.mpr full)⟩

/-- An acting peer downstream (R148, R170). -/
theorem mem_acting_iff {s : State} {f : HelloFields} :
    f ∈ s.listeners.filter (fun f => decide (f.kind ≠ .nothing) && decide (f.station = .running)) ↔
      f ∈ s.listeners ∧ f.kind ≠ .nothing ∧ f.station = .running := by
  simp

/-- The nearest acting peer has the smallest S, then the smallest S + O (R148, R170). -/
theorem State.actingPeer_of {s : State} {f : HelloFields} (acts : f ∈ s.listeners ∧ f.kind ≠ .nothing ∧ f.station = .running)
    (nearest : ∀ g : HelloFields, g ∈ s.listeners ∧ g.kind ≠ .nothing ∧ g.station = .running →
      f.s < g.s ∨ (f.s = g.s ∧ f.s + f.o ≤ g.s + g.o)) :
    ∃ g, s.actingPeer = some g ∧ g.s = f.s ∧ g.o = f.o := by
  have member := mem_acting_iff.mpr acts
  obtain ⟨g, picked⟩ := Option.ne_none_iff_exists'.mp fun none => List.ne_nil_of_mem member (pickBest_eq_none.mp none)
  refine ⟨g, picked, ?_⟩
  have near := nearest g (mem_acting_iff.mp (pickBest_mem picked))
  obtain ⟨before, after, split, ahead, behind⟩ := pickBest_splits
    (fun x y z => by simp only [Bool.or_eq_true, Bool.and_eq_true, decide_eq_true_eq]; omega)
    (fun x y z => by simp only [Bool.or_eq_false_iff, Bool.and_eq_false_iff, decide_eq_false_iff_not]; omega) picked
  rw [split, List.mem_append, List.mem_cons] at member
  rcases member with place | same | place
  · have beats := ahead f place
    simp only [Bool.or_eq_true, Bool.and_eq_true, decide_eq_true_eq] at beats
    omega
  · rw [same]; exact ⟨rfl, rfl⟩
  · have not := behind f place
    simp only [Bool.or_eq_false_iff, Bool.and_eq_false_iff, decide_eq_false_iff_not] at not
    omega

/-- Settles O20: whether a request is permitted, its priority by the nearest acting peer, and how a notice joins. -/
theorem pieceNoticeRequested : Obligations.PieceNoticeRequested := by
  unfold Obligations.PieceNoticeRequested
  intro s p x permitted joins acting
  have may : s.mayRequest = permitted := by simp [State.mayRequest, permitted]
  have joined : ∀ arb body, joins arb body (s.offerNotice arb body) := s.offerNotice_eq
  have piece : permitted = true → s.listeners ≠ [] →
      s.requestPiece p = s.offerNotice (16 * s.piecePriority p.lead + s.station.number.val) (.piece p) := by
    intro allowed heard
    refine if_pos ?_
    simp [may, allowed, heard]
  refine ⟨s.mem_listeners_iff, fun not => ?silent, fun allowed heard => ⟨fun none => ?far, fun f acts nearest => ?near⟩,
    fun not => ?_, fun allowed => ?_⟩
  case silent =>
    refine if_neg ?_
    rcases not with h | h
    · simp [may, h]
    · simp [h]
  case far =>
    have noPeer : s.actingPeer = .none :=
      pickBest_eq_none.mpr (List.eq_nil_iff_forall_not_mem.mpr fun f hf => none f (mem_acting_iff.mp hf))
    rw [piece allowed heard, State.piecePriority, noPeer]
    exact joined _ _
  case near =>
    obtain ⟨g, peer, sameS, sameO⟩ := s.actingPeer_of acts nearest
    rw [piece allowed heard, State.piecePriority, peer]
    dsimp only
    rw [sameS, sameO]
    exact joined _ _
  · exact if_neg (by rw [may, not]; exact Bool.false_ne_true)
  · rw [show s.requestEscape x = _ from if_pos (may.trans allowed)]
    exact joined _ _

/-! ### Settlement -/

/-- A request that the table has taken is served by its readings (R51). -/
theorem State.request_taken {e g : State} {c : Claimant} {test : TableRequest → Bool} {r : TableRequest} {x : Option Reading}
    (taken : e.takeRequest c test = some (⟨r, x⟩, g)) : e.request c test = g.serve (x.getD g.reading) r := by
  rw [State.request, taken]

/-- Requesting a PIECE notice and freeing a slot do not meet: the notice is read from belt, roster and queue (R66). -/
theorem State.requestPiece_setSlot (s : State) (i : Fin 128) (en : Option Entry) (n : PieceNotice) :
    (s.setSlot i en).requestPiece n = (s.requestPiece n).setSlot i en := by
  unfold State.requestPiece State.offerNotice
  rw [apply_ite (fun t : State => t.setSlot i en), apply_ite (fun t : State => t.setSlot i en)]
  rfl

/-- An entry settles: its slot is freed, its counters rise, and its notice is requested (R66). -/
theorem State.settleEntry_eq (s : State) (i : Fin 128) (en : Entry) (v : Verdict) (cause : Option DenialCause) :
    s.settleEntry i en v cause = ((s.setSlot i none).countVerdict v cause ((en.decision.map Decision.cls).getD .unknown)).requestPiece
      (en.notice v ((en.decision.map Decision.cls).getD .unknown)) := by
  have apart : (s.setSlot i none).countVerdict v cause ((en.decision.map Decision.cls).getD .unknown) =
      (s.countVerdict v cause ((en.decision.map Decision.cls).getD .unknown)).setSlot i none := by
    unfold State.countVerdict
    dsimp only
    split <;> rfl
  rw [apart, State.requestPiece_setSlot]
  rfl

/-- Settles O21: what each report writes into its entry. -/
theorem reportsServed : Obligations.ReportsServed := by
  unfold Obligations.ReportsServed
  intro l i en d x s e g he running slot decision
  refine ⟨fun granted flags taken => ?opened, fun v cause flags taken => ?settled⟩
  case opened =>
    refine exec_running he running rfl rfl ((State.request_taken taken).trans ?_)
    simp only [State.serve, State.serveReport, slot, Entry.writeGrant, decision]
    rfl
  case settled =>
    dsimp only
    refine exec_running he running rfl rfl ((State.request_taken taken).trans ?_)
    have served : g.serve (x.getD g.reading) (.report (.settled i v cause flags)) = g.settleEntry i (en.writeFlags flags) v cause := by
      simp only [State.serve, State.serveReport, slot]
    rw [served, State.settleEntry_eq]
    simp only [Entry.writeFlags, decision, Option.map_some, Option.getD_some, Entry.notice, spanLength]
    refine congrArg₂ State.requestPiece ?_ ?_
    · cases v with
      | denied =>
        cases cause with
        | none => rfl
        | some k => cases k <;> rfl
      | passed | ejected | removed | trimmed | late | carried => cases cause <;> rfl
    · cases en.own <;> rfl

/-- Settles O23: without an EXPECTED entry that matches and without a FREE slot the piece is denied. -/
theorem localPieceFindsTableFull : Obligations.LocalPieceFindsTableFull := by
  unfold Obligations.LocalPieceFindsTableFull
  intro l p x s e g he running taken full
  have none : chooseMatch (g.expectedMatches p) = none := by
    refine pickBest_eq_none.mpr (List.filterMap_eq_nil_iff.mpr fun j _ => ?_)
    obtain ⟨en, slot, noMatch⟩ := full j
    rw [slot]
    dsimp only
    split
    · exact if_neg (noMatch _ ‹_› ‹_›)
    · rfl
  have noSlot : g.freeSlot = .none := State.freeSlot_none.mpr fun j => by
    obtain ⟨en, slot, -⟩ := full j
    rw [slot]; rfl
  refine exec_running he running rfl rfl ((State.request_taken taken).trans ?_)
  simp only [State.serve, State.serveLocal, none, noSlot]
  rfl

/-- Settles O27: the earliest deadline is the entry's, and a scanning station frees it. -/
theorem unseenEntryExpires : Obligations.UnseenEntryExpires := by
  unfold Obligations.UnseenEntryExpires
  intro l x d i en v s e g he running taken scan earliest slot expected expectation
  refine exec_running he running rfl rfl ((State.request_taken taken).trans ?_)
  simp only [State.serve, State.serveDeadline, earliest, slot, expected, if_true, State.serveExpected, scan, expectation,
    Option.map_some, Option.getD_some]
  rfl

/-! ### The arbiter -/

/-- A claimant may be taken by a free table when it waits and no earlier one does, or they are tied (R51). -/
theorem State.mayTake_iff (s : State) (c : Claimant) : s.mayTake c = true ↔
    s.table.inFlight = none ∧ s.claims.has c = true ∧ (s.claims.ahead c = false ∨ s.table.tied.has c = true) := by
  simp [State.mayTake, and_assoc]

/-- A claimant's front request taken by a free table: for its command, and ahead of an edge (R51, R86). -/
theorem State.take_front {s : State} {c : Claimant} {r : TableRequest} (may : s.mayTake c = true) (front : s.frontRequest c = some r) :
    (∀ test : TableRequest → Bool, test r = true → s.takeRequest c test = some (⟨r, none⟩, s.popRequest c)) ∧
      s.readAhead (some c) = (s.popRequest c).setFlight (some ⟨r, some s.reading⟩) := by
  have free : s.table.inFlight = none := ((s.mayTake_iff c).mp may).1
  refine ⟨fun test passes => ?_, ?_⟩
  · rw [State.takeRequest, free]
    dsimp only
    rw [if_pos may, front]
    exact if_pos passes
  · rw [State.readAhead, State.callAhead, free]
    dsimp only
    rw [State.startRequest, if_pos may, front]

/-- Settles O29: who may be taken, and what a taking leaves, claimant by claimant. -/
theorem arbiterOrder : Obligations.ArbiterOrder := by
  unfold Obligations.ArbiterOrder
  intro s
  refine ⟨⟨?_, ?_, ?_, ?_⟩, ?_⟩
  · simp [State.mayTake_iff, State.claims, Claims.has, Claims.ahead]
  · simp [State.mayTake_iff, State.claims, Claims.has, Claims.ahead]
  · simp [State.mayTake_iff, State.claims, Claims.has, Claims.ahead]
  · simp [State.mayTake_iff, State.claims, Claims.has, Claims.ahead, and_assoc]
  intro reading free
  refine ⟨fun p rest may queue => ?localPiece, fun r rest may queue => ?received, fun r rest may queue test passes => ?report,
    fun may => ?deadline, fun f flight c => ?flight, fun c none not => ?none, rfl⟩
  case localPiece =>
    obtain ⟨takes, ahead⟩ := State.take_front (r := .localPiece p) may (by rw [State.frontRequest, queue]; rfl)
    rw [takes _ rfl, ahead]
    simp only [State.popRequest, queue]
    exact ⟨rfl, rfl⟩
  case received =>
    obtain ⟨takes, ahead⟩ := State.take_front (r := .received r) may (by rw [State.frontRequest, queue]; rfl)
    rw [takes _ rfl, ahead]
    simp only [State.popRequest, queue]
    exact ⟨rfl, rfl⟩
  case report =>
    obtain ⟨takes, ahead⟩ := State.take_front (r := .report r) may (by rw [State.frontRequest, queue]; rfl)
    rw [takes _ passes, ahead]
    simp only [State.popRequest, queue]
    exact ⟨rfl, rfl⟩
  case deadline =>
    have stands : s.deadlineStands = true := ((s.mayTake_iff .deadline).mp may).2.1
    obtain ⟨takes, ahead⟩ := State.take_front (r := .deadline) may (by rw [State.frontRequest, stands]; rfl)
    rw [takes _ rfl, ahead]
    exact ⟨rfl, rfl⟩
  case flight =>
    obtain ⟨request, made⟩ := f
    refine ⟨?_, ?_⟩
    · rw [State.takeRequest, flight]
      dsimp only
      by_cases own : request.claimant = c
      · rw [if_pos own]
        exact if_pos (decide_eq_true own)
      · rw [if_neg own]
        exact if_neg fun is => own (of_decide_eq_true is)
    · rw [State.readAhead, State.callAhead, flight]
      cases made with
      | some x => exact (if_neg fun both => nomatch both.2).symm
      | none =>
        dsimp only
        by_cases own : request.claimant = c
        · rw [if_pos own, if_pos ⟨own, rfl⟩]
          rfl
        · rw [if_neg own, if_neg fun both => own both.1]
  case none =>
    refine ⟨?_, ?_⟩
    · rw [State.takeRequest, none]
      exact if_neg (Bool.eq_false_iff.mp not)
    · rw [State.readAhead, State.callAhead, none]
      exact if_neg (Bool.eq_false_iff.mp not)

end Sys2Proof.Machine
end

section
/-! PROOFS. Correlation: the candidate chosen, the free slot, and the deadline order. -/

namespace Sys2Proof.Machine

/-! ### The candidate chosen (R53) -/

/-- A count that is ahead of another by a positive difference has the other before it (R3). -/
theorem isBefore_of_pos {a b : Count} (h : 0 < diff b a) : isBefore a b = true ∧ isBefore b a = false := by
  have reaches : reaches b a = true := decide_eq_true h.le
  refine ⟨?_, by rw [isBefore, reaches]; rfl⟩
  have behind : diff a b < 0 := by
    rw [diff_eq_signed_residue] at h ⊢
    have := a.isLt
    have := b.isLt
    dsimp only at h ⊢
    split at h <;> split <;> omega
  rw [isBefore, Machine.reaches, decide_eq_false (not_le.mpr behind)]
  rfl

/-- A match is nearer than another: the smaller difference, then the earlier reference count, then the lower place (R53). -/
def Match.Nearer (m m' : Match) : Prop :=
  m.mag < m'.mag ∨ (m.mag = m'.mag ∧ (0 < diff m'.ref m.ref ∨ (m.ref = m'.ref ∧ m.place < m'.place)))

/-- Of matches in the order of their places the nearest is chosen (R53). -/
theorem chooseMatch_of_nearest {ms : List Match} {m : Match} (sorted : ms.Pairwise fun a b => a.place < b.place) (member : m ∈ ms)
    (nearest : ∀ m' ∈ ms, m'.place ≠ m.place → m.Nearer m') : chooseMatch ms = some m := by
  obtain ⟨before, after, rfl⟩ := List.append_of_mem member
  obtain ⟨-, tail, between⟩ := List.pairwise_append.mp sorted
  refine pickBest_of_best (fun m' place => ?_) (fun m' place => ?_)
  · have later : m.place < m'.place := List.rel_of_pairwise_cons tail place
    rcases nearest m' (by simp [place]) (by omega) with less | ⟨same, pos | ⟨ref, -⟩⟩
    · simp; omega
    · simp [same, isBefore_of_pos pos]
    · simp [same, ref, isBefore]
  · have earlier : m'.place < m.place := between m' place m List.mem_cons_self
    rcases nearest m' (by simp [place]) (by omega) with less | ⟨same, pos | ⟨ref, lower⟩⟩
    · simp [less]
    · simp [same, isBefore_of_pos pos]
    · omega

/-- A list read off in the order of places, a match at each place (R53). -/
theorem matches_sorted {f : Fin 128 → Option Match} (places : ∀ i m, f i = some m → m.place = i.val) :
    ((List.finRange 128).filterMap f).Pairwise fun a b => a.place < b.place := by
  refine List.Pairwise.filterMap (R := (· < ·)) f (fun i j less m hm m' hm' => ?_) (List.pairwise_lt_finRange 128)
  rw [places i m hm, places j m' hm']
  exact less

/-- The match test (R53). -/
theorem matches?_eq_some {w : Nat} {subject ref : Count} {h a b c d place : Nat} {m : Match} :
    matches? w subject ref h a b c d place = some m ↔
      ((diff subject ref).natAbs ≤ h ∧ a ≤ d + w ∧ c ≤ b + w) ∧ m = ⟨place, (diff subject ref).natAbs, ref⟩ := by
  unfold matches?
  split
  · simp [eq_comm, *]
  · simp [*]

/-- The EXPECTED entries that match a local piece (R53, R54). -/
theorem State.mem_expectedMatches {s : State} {p : PieceRecord} {m : Match} : m ∈ s.expectedMatches p ↔
    ∃ (j : Fin 128) (o : Entry) (v : Expectation), s.table.slots[j] = some o ∧ o.state = .expected ∧ o.expectation = some v ∧
      ((diff p.lead v.e).natAbs ≤ v.h ∧ p.first ≤ o.last + s.opts.peerWiden ∧ o.first ≤ p.last + s.opts.peerWiden) ∧
      m = ⟨j.val, (diff p.lead v.e).natAbs, v.e⟩ := by
  simp only [State.expectedMatches, List.mem_filterMap, List.mem_finRange, true_and]
  constructor
  · rintro ⟨j, chosen⟩
    split at chosen
    · rename_i o slot
      split at chosen
      · rename_i v state expectation
        obtain ⟨meets, made⟩ := matches?_eq_some.mp chosen
        exact ⟨j, o, v, slot, state, expectation, meets, made⟩
      · cases chosen
    · cases chosen
  · rintro ⟨j, o, v, slot, state, expectation, meets, made⟩
    refine ⟨j, ?_⟩
    rw [slot]
    dsimp only
    rw [state, expectation]
    exact matches?_eq_some.mpr ⟨meets, made⟩

/-- The matches of a local piece with EXPECTED entries come in slot order. -/
theorem State.expectedMatches_sorted (s : State) (p : PieceRecord) :
    (s.expectedMatches p).Pairwise fun a b => a.place < b.place := by
  refine matches_sorted fun i m chosen => ?_
  split at chosen
  · split at chosen
    · rw [(matches?_eq_some.mp chosen).2]
    · cases chosen
  · cases chosen

/-- The escape records that match a local piece (R53, R55). -/
theorem State.mem_escapeMatches {s : State} {p : PieceRecord} {m : Match} : m ∈ s.escapeMatches p ↔
    ∃ (k : Nat) (r : EscapeRecord), s.table.escapes[k]? = some r ∧
      ((diff p.lead r.e).natAbs ≤ r.h ∧ p.first ≤ r.last + s.opts.peerWiden ∧ r.first ≤ p.last + s.opts.peerWiden) ∧
      m = ⟨k, (diff p.lead r.e).natAbs, r.e⟩ := by
  simp only [State.escapeMatches, List.mem_filterMap, Prod.exists, List.mem_zipIdx_iff_getElem?, matches?_eq_some]
  exact exists_comm

/-- The matches of a local piece with escape records come in list order. -/
theorem State.escapeMatches_sorted (s : State) (p : PieceRecord) :
    (s.escapeMatches p).Pairwise fun a b => a.place < b.place := by
  have order : s.table.escapes.zipIdx.Pairwise fun a b => a.2 < b.2 := by
    rw [← List.pairwise_map (f := Prod.snd) (R := (· < ·)), List.zipIdx_map_snd]
    exact List.pairwise_lt_range' ..
  refine List.Pairwise.filterMap _ (fun a b less m hm m' hm' => ?_) order
  rw [(matches?_eq_some.mp hm).2, (matches?_eq_some.mp hm').2]
  exact less

/-- The entries in use that match a peer report (R53, R59). -/
theorem State.mem_reportMatches {s : State} {r : PeerReport} {h : Nat} {m : Match} : m ∈ s.reportMatches r h ↔
    ∃ (j : Fin 128) (en : Entry) (ref : Count), s.table.slots[j] = some en ∧ en.reference = some ref ∧
      ((diff r.lead ref).natAbs ≤ h ∧ r.first ≤ en.last + s.opts.peerWiden ∧ en.first ≤ r.last + s.opts.peerWiden) ∧
      m = ⟨j.val, (diff r.lead ref).natAbs, ref⟩ := by
  simp only [State.reportMatches, List.mem_filterMap, List.mem_finRange, true_and]
  constructor
  · rintro ⟨j, chosen⟩
    split at chosen
    · rename_i en slot
      split at chosen
      · rename_i ref reference
        obtain ⟨meets, made⟩ := matches?_eq_some.mp chosen
        exact ⟨j, en, ref, slot, reference, meets, made⟩
      · cases chosen
    · cases chosen
  · rintro ⟨j, en, ref, slot, reference, meets, made⟩
    refine ⟨j, ?_⟩
    rw [slot]
    dsimp only
    rw [reference]
    exact matches?_eq_some.mpr ⟨meets, made⟩

/-- The matches of a peer report come in slot order. -/
theorem State.reportMatches_sorted (s : State) (r : PeerReport) (h : Nat) :
    (s.reportMatches r h).Pairwise fun a b => a.place < b.place := by
  refine matches_sorted fun i m chosen => ?_
  split at chosen
  · split at chosen
    · rw [(matches?_eq_some.mp chosen).2]
    · cases chosen
  · cases chosen

/-- The lowest FREE slot (R48). -/
theorem State.freeSlot_of_lowest {s : State} {i : Fin 128} (free : s.table.slots[i] = none)
    (used : ∀ j : Fin 128, j < i → s.table.slots[j].isSome = true) : s.freeSlot = some i := by
  obtain ⟨k, found⟩ : ∃ k, s.freeSlot = some k := Option.ne_none_iff_exists'.mp fun full => by
    have inUse := State.freeSlot_none.mp full i
    rw [free] at inUse
    cases inUse
  have kFree := State.freeSlot_free found
  obtain ⟨-, before, after, split, passed⟩ := List.find?_eq_some_iff_append.mp found
  have notBelow : ¬k < i := fun below => by
    have inUse := used k below
    rw [kFree] at inUse
    cases inUse
  have place : i ∈ before ++ k :: after := split ▸ List.mem_finRange i
  rcases List.mem_append.mp place with early | late
  · have inUse := passed i early
    rw [free] at inUse
    cases inUse
  · rcases List.mem_cons.mp late with same | later
    · rw [found, same]
    · have ordered := List.pairwise_lt_finRange 128
      rw [split] at ordered
      exact absurd (List.rel_of_pairwise_cons (List.pairwise_append.mp ordered).2.1 later) notBelow

end Sys2Proof.Machine
end

section
/-! PROOFS. Decisions: what the table makes of an entry, and the requests that decide one. -/

namespace Sys2Proof.Machine

/-! ### The decision of an entry (R61, R75) -/

/-- The target test by the mask of the mode read (R77, R80). -/
theorem State.isTarget_eq (s : State) (m : Mode) (c : PieceClass) (n : Nat) : s.isTarget m c n =
    (decide (s.opts.kind ≠ .nothing) && ClassMask.has (if m = .assisted then s.opts.eject else s.opts.fallback) c &&
      decide (s.opts.areaMin ≤ n) && decide (n ≤ s.opts.areaMax)) := by
  cases m <;> rfl

/-- The decision of a non-target (R61, R81, R82). -/
theorem State.decision_of_other {s : State} {rd : Reading} {en : Entry} (other : s.isTarget rd.mode en.effective en.area = false)
    (i : Fin 128) : s.decision rd i en =
      if s.opts.kind = .gate then .passage ⟨en.effective, false, none, 0, .clear⟩
      else .settle (s.passiveVerdict en.effective) none ⟨en.effective, false, none, 0, .clear⟩ :=
  if_neg (Bool.eq_false_iff.mp other)

/-- The window points of an entry, and whether they are cut (R83). -/
theorem windowPoints_eq (o : Options) (lead trail : Count) {pOpen wide pClose : Count} {cut : Bool}
    (hOpen : pOpen = shift lead ((o.o : Int) - (o.pre : Int))) (hWide : wide = shift trail ((o.o : Int) + (o.post : Int)))
    (hCut : cut = decide ((o.wMax : Int) < diff wide pOpen)) (hClose : pClose = if cut then shift pOpen (o.wMax : Int) else wide) :
    windowPoints o lead trail = (pOpen, pClose, cut) := by
  unfold windowPoints
  rw [← hOpen, ← hWide]
  by_cases long : (o.wMax : Int) < diff wide pOpen
  · rw [hClose, hCut, decide_eq_true long]
    exact if_pos long
  · rw [hClose, hCut, decide_eq_false long]
    exact if_neg long

/-- A target's window is placed by the late tests (R86, R87, R88). -/
theorem placeWindow_eq (rd : Reading) (d : Decision) (w : Window) (fresh : d.flags.lateOpen = false) (same : w.flags = d.flags)
    {due : Count → Bool} (hDue : due = fun point => decide (rd.belt = .moving) && reaches rd.count (shift point (-(rd.lead : Int)))) :
    placeWindow rd d w = if due w.pClose = true then .settle .late none d
      else .window { d with flags := { d.flags with lateOpen := due w.pOpen } }
        { w with flags := { w.flags with lateOpen := due w.pOpen } } := by
  obtain ⟨cls, target, points, granted, ⟨late, long, trimmed, cut⟩⟩ := d
  obtain ⟨slot, pOpen, pClose, flags, span, grant⟩ := w
  cases fresh
  cases same
  unfold placeWindow
  rw [hDue]
  by_cases moving : rd.belt = .moving
  · cases close : reaches rd.count (shift pClose (-(rd.lead : Int))) <;>
      cases opens : reaches rd.count (shift pOpen (-(rd.lead : Int))) <;>
        simp [moving, Reading.due, close, opens]
  · simp [moving]

/-- An entry that settles without a cause (R66, R67). -/
theorem State.settleEntry_of_none (s : State) (i : Fin 128) (en : Entry) (v : Verdict) {d : Decision} (decision : en.decision = some d) :
    s.settleEntry i en v none = ((s.bump (.verdict v d.cls)).requestPiece (en.notice v d.cls)).setSlot i none := by
  rw [State.settleEntry, decision]
  cases v <;> rfl

section

variable {s : State} {rd : Reading} {i : Fin 128} {en : Entry} {pOpen pClose : Count} {cut : Bool}

/-- A target without room in the open queue (R85). -/
theorem State.decision_of_full (target : s.isTarget rd.mode en.effective en.area = true)
    (points : windowPoints s.opts en.lead en.trail = (pOpen, pClose, cut)) (full : rd.room = false ∨ 32 ≤ s.outlets.openQ.length) :
    s.decision rd i en = .settle .denied (some .queue) ⟨en.effective, true, some (pOpen, pClose), 0, ⟨false, cut, false, false⟩⟩ := by
  refine (if_pos target).trans ?_
  rw [points]
  exact if_pos full

/-- A target with room in the open queue: LATE, or a window (R86, R87, R88). -/
theorem State.decision_of_room (target : s.isTarget rd.mode en.effective en.area = true)
    (points : windowPoints s.opts en.lead en.trail = (pOpen, pClose, cut)) (room : rd.room = true) (short : s.outlets.openQ.length < 32)
    {span : Option Span}
    (spans : (if s.opts.kind = .lanes then some (laneSpan s.opts en.own.isSome en.first en.last en.centroid) else none) = span)
    {due : Count → Bool} (hDue : due = fun point => decide (rd.belt = .moving) && reaches rd.count (shift point (-(rd.lead : Int)))) :
    s.decision rd i en =
      if due pClose = true then .settle .late none ⟨en.effective, true, some (pOpen, pClose), 0, ⟨false, cut, false, false⟩⟩
      else .window ⟨en.effective, true, some (pOpen, pClose), 0, ⟨due pOpen, cut, false, false⟩⟩
        ⟨i, pOpen, pClose, ⟨due pOpen, cut, false, false⟩, span, 0⟩ := by
  have free : ¬(rd.room = false ∨ 32 ≤ s.outlets.openQ.length) := by simp [room, short]
  refine (if_pos target).trans ?_
  rw [points]
  refine (if_neg free).trans ?_
  rw [spans]
  exact placeWindow_eq rd _ _ rfl rfl hDue

end

/-- The place of a window in the open queue (R91). -/
theorem insertBehind_pOpen (w : Window) (q : List Window) :
    insertBehind (fun y x => isBefore x.pOpen y.pOpen) w q = placed (fun y => reaches w.pOpen y.pOpen) w q := by
  rw [insertBehind_eq_placed]
  simp only [isBefore, Bool.not_not]

/-- The lane span of a window, each lane held within 0 to 31 (R84). -/
theorem laneSpan_of_widen (o : Options) {w : Nat} {hasOwn : Bool} (widen : (w : Int) = if hasOwn = true then 0 else (o.peerWiden : Int))
    (first last centroid : Nat) :
    ({ first := (max 0 (min 31 ((first : Int) + o.laneOffset - (o.laneMargin : Int) - (w : Int)))).toNat
       last := (max 0 (min 31 ((last : Int) + o.laneOffset + (o.laneMargin : Int) + (w : Int)))).toNat
       centroid := (max 0 (min 31 ((centroid : Int) + o.laneOffset))).toNat } : Span) = laneSpan o hasOwn first last centroid := by
  rw [widen]
  rfl

/-- What the table makes of an entry at its decision, as Safety writes it out. -/

theorem entryDecided_of {s : State} {rd : Reading} {i : Fin 128} {en : Entry} {cls : PieceClass} {flags : PieceFlags} {w : Nat}
    {answers : State → Prop} (hcls : en.effective = cls) (hflags : (en.own.map LocalPart.flags).getD en.geomFlags = flags)
    (hw : w = if en.own.isSome then 0 else s.opts.peerWiden) (decided : answers (s.decideEntry rd i en)) :
    EntryDecided s rd i en cls flags w answers := by
  subst hcls hflags
  have points := windowPoints_eq s.opts en.lead en.trail rfl rfl rfl rfl
  have widen : (w : Int) = if en.own.isSome = true then 0 else (s.opts.peerWiden : Int) := by
    rw [hw]
    cases en.own <;> rfl
  unfold EntryDecided
  rw [← State.isTarget_eq]
  refine ⟨fun other gate => ?passive, fun other gate => ?passing, fun isT full => ?denied, fun isT room short late => ?late,
    fun isT room short inTime => ?due⟩
  case passive =>
    rw [State.decideEntry, State.decision_of_other other, if_neg gate] at decided
    dsimp only at decided
    rw [s.settleEntry_of_none i _ _ rfl] at decided
    exact decided
  case passing =>
    rw [State.decideEntry, State.decision_of_other other, if_pos gate] at decided
    exact decided
  case denied =>
    rw [State.decideEntry, State.decision_of_full isT points full] at decided
    exact decided
  case late =>
    rw [State.decideEntry, State.decision_of_room isT points room short rfl rfl, if_pos late] at decided
    dsimp only at decided
    rw [s.settleEntry_of_none i _ _ rfl] at decided
    exact decided
  case due =>
    rw [State.decideEntry, State.decision_of_room isT points room short rfl rfl,
      if_neg (fun due => Bool.false_ne_true (inTime.symm.trans due))] at decided
    dsimp only [State.queueWindow] at decided
    rw [insertBehind_pOpen, ← laneSpan_of_widen s.opts widen] at decided
    exact decided

end Sys2Proof.Machine
end

section
/-! PROOFS. The track table's requests: local pieces, receive records, escapes and deadlines. -/

namespace Sys2Proof.Machine

/-! ### Local pieces (R54, R55, R56) -/

/-- A decision writes state, deadline and decision itself, and reads none of them (R61). -/
theorem State.decideEntry_forget (s : State) (rd : Reading) (i : Fin 128) (en : Entry) (a : EntryState) (b : Option Count)
    (c : Option Decision) : s.decideEntry rd i { en with state := a, deadline := b, decision := c } = s.decideEntry rd i en := by
  have same : s.decision rd i { en with state := a, deadline := b, decision := c } = s.decision rd i en := rfl
  rw [State.decideEntry, State.decideEntry, same]
  cases s.decision rd i en <;> rfl

/-- The effective class of an entry with a local part (R78). -/
theorem Entry.effective_of_own {en : Entry} {o : LocalPart} (own : en.own = some o) : en.effective =
    if o.cls = .ferrous ∨ ∃ y ∈ en.reports, y.cls = .ferrous then .ferrous
    else if o.cls ≠ .unknown then o.cls
    else ((chosenReport en.reports).map PeerReport.cls).getD .unknown := by
  simp only [Entry.effective, own, Option.map_some, effectiveClass, Option.some.injEq, List.any_eq_true, decide_eq_true_eq]

/-- The effective class of an entry without a local part (R78). -/
theorem Entry.effective_of_report {en : Entry} {r : PeerReport} (own : en.own = none) (chosen : chosenReport en.reports = some r) :
    en.effective = if ∃ y ∈ en.reports, y.cls = .ferrous then .ferrous else r.cls := by
  simp [Entry.effective, own, effectiveClass, chosen]

section

variable {s : State} {rd : Reading} {p : PieceRecord}


/-- A local piece is written into the EXPECTED entry it matches best (R53, R54). -/
theorem State.serveLocal_of_expected {i : Fin 128} {o : Entry} {m : Match} (chosen : chooseMatch (s.expectedMatches p) = some m)
    (place : m.place = i.val) (slot : s.table.slots[i] = some o) : s.serveLocal rd p = s.decideEntry rd i (o.writeLocal p) := by
  have index : Fin.ofNat 128 m.place = i := by
    rw [place]
    exact Fin.ofNat_val_eq_self i
  simp only [State.serveLocal, chosen, index, slot]

/-- A local piece that matches nothing makes an entry of its own (R56). -/
theorem State.serveLocal_of_none {i : Fin 128} (expected : s.expectedMatches p = []) (free : s.freeSlot = some i)
    (watched : s.escapeMatches p = []) : s.serveLocal rd p = s.decideEntry rd i p.entry := by
  simp only [State.serveLocal, expected, free, watched]
  rfl

/-- A local piece that matches an escape record takes it into its entry (R55). -/
theorem State.serveLocal_of_escape {i : Fin 128} {r : EscapeRecord} {m : Match} (expected : s.expectedMatches p = [])
    (free : s.freeSlot = some i) (chosen : chooseMatch (s.escapeMatches p) = some m) (record : s.table.escapes[m.place]? = some r) :
    s.serveLocal rd p = ((s.dropEscape m.place).requestEscape ⟨r.station, r.tag, p.cls⟩).decideEntry rd i
      { p.entry with reports := [r.report], escapeSource := some (r.station, r.tag) } := by
  have none : chooseMatch (s.expectedMatches p) = .none := by
    rw [expected]
    rfl
  simp only [State.serveLocal, none, free, chosen, record]

end

/-- Settles O22: the entry a local piece finds, and its decision. -/
theorem localPieceDecided : Obligations.LocalPieceDecided := by
  unfold Obligations.LocalPieceDecided
  intro l p x rd i en s e g h he running taken hrd own fresh meets nearer expects lowestFree watched finds
  have request := State.request_taken taken
  have reads : x.getD g.reading = rd := hrd.symm
  have noExpected : (∀ j o v, ¬expects j o v) → g.expectedMatches p = [] := fun none =>
    List.eq_nil_iff_forall_not_mem.mpr fun m member => by
      obtain ⟨j, o, v, slot, state, expectation, within, -⟩ := State.mem_expectedMatches.mp member
      exact none j o v ⟨slot, state, expectation, within⟩
  have noWatched : (∀ k r, ¬watched k r) → g.escapeMatches p = [] := fun none =>
    List.eq_nil_iff_forall_not_mem.mpr fun m member => by
      obtain ⟨k, r, record, within, -⟩ := State.mem_escapeMatches.mp member
      exact none k r ⟨record, within⟩
  obtain ⟨served, hasOwn⟩ : g.serveLocal rd p = h.decideEntry rd i en ∧ en.own = some own := by
    rcases finds with ⟨o, v, expected, nearest, rfl, rfl⟩ | ⟨none, lowest, unwatched, rfl, hen⟩ |
      ⟨none, lowest, k, r, record, nearest, rfl, hen⟩
    · obtain ⟨slot, state, expectation, within⟩ := expected
      have chosen : chooseMatch (h.expectedMatches p) = some ⟨i.val, (diff p.lead v.e).natAbs, v.e⟩ := by
        refine chooseMatch_of_nearest (h.expectedMatches_sorted p)
          (State.mem_expectedMatches.mpr ⟨i, o, v, slot, state, expectation, within, rfl⟩) fun m' member other => ?_
        obtain ⟨j, o', v', slot', state', expectation', within', rfl⟩ := State.mem_expectedMatches.mp member
        exact nearest j o' v' (fun same => other (congrArg Fin.val same)) ⟨slot', state', expectation', within'⟩
      exact ⟨State.serveLocal_of_expected chosen rfl slot, rfl⟩
    · refine ⟨?_, by rw [hen]⟩
      rw [State.serveLocal_of_none (noExpected none) (State.freeSlot_of_lowest lowest.1 lowest.2) (noWatched unwatched), hen]
      exact (State.decideEntry_forget h rd i p.entry en.state .none .none).symm
    · refine ⟨?_, by rw [hen]⟩
      have chosen : chooseMatch (g.escapeMatches p) = some ⟨k, (diff p.lead r.e).natAbs, r.e⟩ := by
        refine chooseMatch_of_nearest (g.escapeMatches_sorted p)
          (State.mem_escapeMatches.mpr ⟨k, r, record.1, record.2, rfl⟩) fun m' member other => ?_
        obtain ⟨k', r', record', within', rfl⟩ := State.mem_escapeMatches.mp member
        exact nearest k' r' other ⟨record', within'⟩
      rw [State.serveLocal_of_escape (noExpected none) (State.freeSlot_of_lowest lowest.1 lowest.2) chosen record.1, hen,
        State.dropEscape, List.eraseIdx_eq_take_drop_succ]
      exact (State.decideEntry_forget _ rd i
        { p.entry with reports := [r.report], escapeSource := some (r.station, r.tag) } en.state .none .none).symm
  refine entryDecided_of ?_ (by rw [hasOwn]; rfl) (by rw [hasOwn]; rfl)
    (exec_running he running rfl rfl (request.trans ?_))
  · rw [Entry.effective_of_own hasOwn]
    cases chosenReport en.reports <;> rfl
  · rw [reads]
    exact served

/-! ### Receive records (R57, R58, R59, R60) -/

section

variable {s : State} {rd : Reading} {r : ReceiveRecord} {h : Nat} {at24 : Count}

/-- A receive record of a piece that has gone by (R57). -/
theorem State.serveReceived_of_passed (hh : h = halfWindow s.opts.hb s.opts.hd (s.dist r)) (passed : s.dist r < -(h : Int)) :
    s.serveReceived rd r = s.bump .passedBy := by
  subst hh
  exact if_pos passed

/-- A report of a piece taken off the belt (R58). -/
theorem State.serveReceived_of_taken (hh : h = halfWindow s.opts.hb s.opts.hd (s.dist r)) (hat : at24 = shift r.latch (s.dist r))
    (ahead : -(h : Int) ≤ s.dist r) (off : r.verdict = .ejected ∨ r.verdict = .removed ∨ r.verdict = .carried) :
    s.serveReceived rd r = if s.opts.scan then s.watch (s.escapeOf r at24 h) else s := by
  subst hh hat
  refine (if_neg (not_lt.mpr ahead)).trans ?_
  rcases off with verdict | verdict | verdict <;> rw [verdict]

/-- A report of a piece still on the belt (R59). -/
theorem State.serveReceived_of_kept (hh : h = halfWindow s.opts.hb s.opts.hd (s.dist r)) (hat : at24 = shift r.latch (s.dist r))
    (ahead : -(h : Int) ≤ s.dist r) (on : r.verdict = .passed ∨ r.verdict = .denied ∨ r.verdict = .late ∨ r.verdict = .trimmed) :
    s.serveReceived rd r = match chooseMatch (s.reportMatches (r.report at24) h) with
      | some m => s.joinEntry (Fin.ofNat 128 m.place) (r.report at24)
      | none => s.expect rd (r.report at24) h := by
  subst hh hat
  refine (if_neg (not_lt.mpr ahead)).trans ?_
  rcases on with verdict | verdict | verdict | verdict <;> rw [verdict] <;> rfl

end

/-- Settles O24: where a receive record goes, and the entry it makes. -/
theorem receiveRecordPlaced : Obligations.ReceiveRecordPlaced := by
  unfold Obligations.ReceiveRecordPlaced
  intro l r x rd s e g he running taken hrd dist h at24 report reference meets nearer fresh
  have hh : h = halfWindow g.opts.hb g.opts.hd (g.dist r) := by
    rw [halfWindow, clampInt, min_comm (65535 : Int)]
    rfl
  have hat : at24 = shift r.latch (g.dist r) := rfl
  have reads : x.getD g.reading = rd := hrd.symm
  have answers : ∀ t, g.serveReceived rd r = t → exec (.receiveRecord l) s = .next (handOn e t) := fun t served =>
    exec_running he running rfl rfl ((State.request_taken taken).trans (by rw [reads]; exact served))
  refine ⟨fun passed => answers _ (State.serveReceived_of_passed hh passed), fun ahead on => ?_⟩
  have kept := State.serveReceived_of_kept (rd := rd) hh hat ahead on
  refine ⟨fun j en ref slot within nearest => ?joins, fun none => ⟨fun full => ?dropped, fun i free lowest => ?_⟩⟩
  case joins =>
    have chosen : chooseMatch (g.reportMatches (r.report at24) h) = some ⟨j.val, (diff at24 ref).natAbs, ref⟩ := by
      refine chooseMatch_of_nearest (g.reportMatches_sorted _ h)
        (State.mem_reportMatches.mpr ⟨j, en, ref, slot, within.1, within.2, rfl⟩) fun m' member other => ?_
      obtain ⟨k, en', ref', slot', reference', within', rfl⟩ := State.mem_reportMatches.mp member
      exact nearest k en' ref' (fun same => other (congrArg Fin.val same)) slot' ⟨reference', within'⟩
    refine answers _ (kept.trans ?_)
    simp only [chosen, State.joinEntry, Fin.ofNat_val_eq_self, slot]
    rfl
  all_goals
    have noMatch : g.reportMatches (r.report at24) h = [] := List.eq_nil_iff_forall_not_mem.mpr fun m member => by
      obtain ⟨j, en, ref, slot, reference, within, -⟩ := State.mem_reportMatches.mp member
      exact none j en ref slot ⟨reference, within⟩
    rw [noMatch] at kept
  case dropped =>
    refine answers _ (kept.trans ?_)
    show g.expect rd (r.report at24) h = _
    rw [State.expect, State.freeSlot_none.mpr full]
  have expects : g.serveReceived rd r = g.expect rd (r.report at24) h := kept
  rw [State.expect, State.freeSlot_of_lowest free lowest] at expects
  dsimp only at expects
  refine ⟨fun scan => answers _ (expects.trans (if_pos scan)), fun blind early => ?waits, fun blind reached => ?decided⟩
  case waits =>
    refine answers _ (expects.trans ?_)
    rw [blind]
    exact if_neg (fun due => Bool.false_ne_true (early.symm.trans due))
  case decided =>
    refine entryDecided_of ?_ rfl rfl (answers _ (expects.trans ?_))
    · rw [Entry.effective_of_report (r := report) rfl rfl]
      by_cases ferrous : r.cls = .ferrous
      · exact (if_pos ⟨report, List.mem_cons_self, ferrous⟩).trans ferrous.symm
      · exact if_neg fun ⟨y, member, is⟩ => ferrous (List.mem_singleton.mp member ▸ is : report.cls = .ferrous)
    · rw [blind]
      refine (if_pos reached).trans ?_
      exact (State.decideEntry_forget g.drawTag rd i (fresh (some g.former.tag) (g.decisionPoint at24)) .expected .none .none).symm

/-! ### The escape watch list (R55, R58, R69) -/

/-- A record's place in the escape watch list (R69). -/
theorem joinEscape_eq_placed (r : EscapeRecord) (rs : List EscapeRecord) :
    joinEscape r rs = placed (fun y => reaches r.e y.e) r rs := by
  rw [joinEscape, insertBehind_eq_placed]
  simp only [isBefore, Bool.not_not]

/-- Freeing a slot that is FREE changes nothing. -/
theorem State.setSlot_of_free {s : State} {i : Fin 128} (free : s.table.slots[i] = none) : s.setSlot i none = s := by
  have same : s.table.slots.set i none = s.table.slots := by
    rw [← free]
    exact Vector.set_getElem_self ..
  rw [State.setSlot, same]

/-- Requesting an ESCAPE notice leaves the options (R68). -/
theorem State.requestEscape_opts (s : State) (x : EscapeNotice) : (s.requestEscape x).opts = s.opts := by
  obtain ⟨k, v, work⟩ := (s.requestEscape_work x).eq
  rw [work]

/-- Requesting an ESCAPE notice leaves the table (R68). -/
theorem State.requestEscape_table (s : State) (x : EscapeNotice) : (s.requestEscape x).table = s.table := by
  obtain ⟨k, v, work⟩ := (s.requestEscape_work x).eq
  rw [work]

/-- Settles O26: what
 enters the watch list, and what the piece that matches its one record becomes. -/
theorem escapesAreWatched : Obligations.EscapesAreWatched := by
  unfold Obligations.EscapesAreWatched
  refine ⟨?watched, ?matched⟩
  case watched =>
    intro l r x s e g he running taken off dist h at24 record watching ahead
    have hh : h = halfWindow g.opts.hb g.opts.hd (g.dist r) := by
      rw [halfWindow, clampInt, min_comm (65535 : Int)]
      rfl
    have answers : ∀ t, g.serveReceived (x.getD g.reading) r = t → exec (.receiveRecord l) s = .next (handOn e t) :=
      fun t served => exec_running he running rfl rfl ((State.request_taken taken).trans served)
    have served := State.serveReceived_of_taken (rd := x.getD g.reading) (at24 := at24) hh rfl ahead off
    refine ⟨fun blind => answers _ (served.trans (by rw [blind]; rfl)), fun scan short => answers _ (served.trans ?_),
      fun front behind scan full long => answers _ (served.trans ?_)⟩
    · rw [scan, if_pos rfl, State.watch, if_pos short, joinEscape_eq_placed]
      rfl
    · have long' : ¬g.table.escapes.length < 32 := by
        rw [full, List.length_cons]
        omega
      rw [scan, if_pos rfl, State.watch, if_neg long', full]
      dsimp only
      by_cases later : 0 ≤ diff front.e at24
      · rw [if_pos later]
        exact if_neg (by simp [isBefore, reaches, State.escapeOf, later])
      · rw [if_neg later, joinEscape_eq_placed]
        exact if_pos (by simp [isBefore, reaches, State.escapeOf, later])
  case matched =>
    intro l p x r i s e g he running taken unexpected escapes near firstWithin lastWithin free lowest cls masked left
    have expected : g.expectedMatches p = [] := List.eq_nil_iff_forall_not_mem.mpr fun m member => by
      obtain ⟨j, o, v, slot, state, -⟩ := State.mem_expectedMatches.mp member
      exact unexpected j o slot state
    have chosen : chooseMatch (g.escapeMatches p) = some ⟨0, (diff p.lead r.e).natAbs, r.e⟩ := by
      refine chooseMatch_of_nearest (g.escapeMatches_sorted p)
        (State.mem_escapeMatches.mpr ⟨0, r, by rw [escapes]; rfl, ⟨near, firstWithin, lastWithin⟩, rfl⟩) fun m' member other => ?_
      obtain ⟨k, r', record, -, rfl⟩ := State.mem_escapeMatches.mp member
      rw [escapes] at record
      cases k with
      | zero => exact absurd rfl other
      | succ k => cases record
    have served : g.serveLocal (x.getD g.reading) p = left.decideEntry (x.getD g.reading) i
        { p.entry with reports := [r.report], escapeSource := some (r.station, r.tag) } := by
      rw [State.serveLocal_of_escape expected (State.freeSlot_of_lowest free lowest) chosen (by rw [escapes]; rfl), State.dropEscape,
        escapes]
      rfl
    let en : Entry := { p.entry with reports := [r.report], escapeSource := some (r.station, r.tag) }
    have effective : en.effective = cls := by
      rw [Entry.effective_of_own (o := p.part) rfl]
      show (if p.cls = .ferrous ∨ (∃ y ∈ [r.report], y.cls = .ferrous) then _ else if p.cls ≠ .unknown then p.cls else r.cls) = cls
      simp only [List.mem_singleton, exists_eq_left, ite_not]
      rfl
    have decided := entryDecided_of (answers := fun t => exec (.localPiece l) s = .next (handOn e t)) (en := en) effective rfl rfl
      (exec_running he running rfl rfl ((State.request_taken taken).trans served))
    have mode : (x.getD g.reading).mode = (x.map Reading.mode).getD g.station.mode := by cases x <;> rfl
    have stillFree : left.table.slots[i] = .none :=
      (congrArg (fun t : Table => t.slots[i]) (State.requestEscape_table _ _)).trans free
    have opts : left.opts = g.opts := State.requestEscape_opts _ _
    unfold EntryDecided at decided
    rw [mode] at decided
    obtain ⟨passive, passing, -⟩ := decided
    refine ⟨fun lanes outside => ?settles, fun gate other => ?passes⟩
    case settles =>
      have settles := passive (by rw [opts, show ClassMask.has _ cls = false from outside]; simp) (by rw [opts, lanes]; decide)
      rw [opts] at settles
      refine settles.trans (congrArg (fun t => Host.Outcome.next (handOn e t)) ?_)
      refine (State.requestPiece_setSlot _ i .none _).symm.trans ?_
      rw [State.setSlot_of_free (by exact stillFree)]
      rfl
    case passes =>
      rw [← opts]
      refine passing ?_ (by rw [opts, gate])
      rw [opts]
      rcases other with outside | small | large
      · rw [show ClassMask.has _ cls = false from outside]
        simp
      · show (_ && decide (g.opts.areaMin ≤ p.n) && _) = false
        rw [decide_eq_false (not_le.mpr small)]
        simp
      · show (_ && decide (p.n ≤ g.opts.areaMax)) = false
        rw [decide_eq_false (not_le.mpr large)]
        simp



/-! ### Deadlines (R62, R64, R65, R70) -/

/-- Entries in slot order come before records in list order (R62). -/
def DeadlineOwner.ahead (a b : DeadlineOwner) : Prop :=
  match a, b with
  | .entry i, .entry j => i < j
  | .entry _, .escape _ => True
  | .escape _, .entry _ => False
  | .escape j, .escape k => j < k

/-- Of two owners at most one is ahead. -/
theorem DeadlineOwner.ahead_asymm {a b : DeadlineOwner} (h : a.ahead b) : ¬b.ahead a := by
  intro back
  cases a <;> cases b <;> simp only [DeadlineOwner.ahead] at h back <;> omega

/-- The deadline that an owner holds (R62). -/
def State.Holds (s : State) (d : Count) (o : DeadlineOwner) : Prop :=
  match o with
  | .entry i => ∃ en, s.table.slots[i] = some en ∧ (en.state = .expected ∨ en.state = .passing) ∧ en.deadline = some d
  | .escape k => ∃ r, s.table.escapes[k]? = some r ∧ r.expiry = d

/-- The deadline of the entry in a slot (R62). -/
def deadlineOf (slot : Option Entry) (i : Fin 128) : Option (Count × DeadlineOwner) :=
  match slot with
  | some en => if en.state = .expected ∨ en.state = .passing then en.deadline.map fun d => (d, .entry i) else none
  | none => none

/-- The deadlines, slot by slot and then record by record (R62). -/
theorem State.deadlines_eq (s : State) : s.deadlines =
    ((List.finRange 128).filterMap fun i => deadlineOf s.table.slots[i] i) ++
      s.table.escapes.zipIdx.map fun x => (x.1.expiry, DeadlineOwner.escape x.2) := rfl

/-- The deadline of an EXPECTED or a PASSING entry alone counts. -/
theorem deadlineOf_eq_some {slot : Option Entry} {i : Fin 128} {x : Count × DeadlineOwner} : deadlineOf slot i = some x ↔
    ∃ en d, slot = some en ∧ (en.state = .expected ∨ en.state = .passing) ∧ en.deadline = some d ∧ x = (d, .entry i) := by
  cases slot with
  | none => simp [deadlineOf]
  | some en =>
    by_cases waits : en.state = .expected ∨ en.state = .passing
    · rw [deadlineOf, if_pos waits, Option.map_eq_some_iff]
      constructor
      · rintro ⟨d, deadline, rfl⟩
        exact ⟨en, d, rfl, waits, deadline, rfl⟩
      · rintro ⟨_, d, ⟨⟩, -, deadline, rfl⟩
        exact ⟨d, deadline, rfl⟩
    · rw [deadlineOf, if_neg waits]
      constructor
      · rintro ⟨⟩
      · rintro ⟨_, d, ⟨⟩, still, -⟩
        exact absurd still waits

/-- The deadlines listed are those that entries and records hold (R62). -/
theorem State.mem_deadlines {s : State} {d : Count} {o : DeadlineOwner} : (d, o) ∈ s.deadlines ↔ s.Holds d o := by
  simp only [State.deadlines_eq, List.mem_append, List.mem_filterMap, List.mem_finRange, true_and, List.mem_map, Prod.exists,
    List.mem_zipIdx_iff_getElem?, deadlineOf_eq_some]
  constructor
  · rintro (⟨i, en, d', slot, waits, deadline, same⟩ | ⟨r, k, record, same⟩)
    · cases same
      exact ⟨en, slot, waits, deadline⟩
    · cases same
      exact ⟨r, record, rfl⟩
  · intro held
    cases o with
    | entry i =>
      obtain ⟨en, slot, waits, deadline⟩ := held
      exact .inl ⟨i, en, d, slot, waits, deadline, rfl⟩
    | escape k =>
      obtain ⟨r, record, expiry⟩ := held
      exact .inr ⟨r, k, record, by rw [expiry]⟩

/-- The deadlines are listed in the order of their owners (R62). -/
theorem State.deadlines_sorted (s : State) : s.deadlines.Pairwise fun a b => a.2.ahead b.2 := by
  rw [State.deadlines_eq]
  refine List.pairwise_append.mpr ⟨?entries, ?records, ?between⟩

  case entries =>
    refine List.Pairwise.filterMap (R := (· < ·)) _ (fun i j less x hx y hy => ?_) (List.pairwise_lt_finRange 128)
    obtain ⟨-, -, -, -, -, rfl⟩ := deadlineOf_eq_some.mp hx
    obtain ⟨-, -, -, -, -, rfl⟩ := deadlineOf_eq_some.mp hy
    exact less
  case records =>
    have order : s.table.escapes.zipIdx.Pairwise fun a b => a.2 < b.2 := by
      rw [← List.pairwise_map (f := Prod.snd) (R := (· < ·)), List.zipIdx_map_snd]
      exact List.pairwise_lt_range' ..
    exact List.pairwise_map.mpr order
  case between =>
    intro x hx y hy
    obtain ⟨i, -, chosen⟩ := List.mem_filterMap.mp hx
    obtain ⟨-, -, -, -, -, rfl⟩ := deadlineOf_eq_some.mp chosen
    obtain ⟨⟨r, k⟩, -, rfl⟩ := List.mem_map.mp hy
    trivial

/-- The earliest deadline, of equal ones the first in the order (R62). -/
theorem State.earliest_of_first {s : State} {d : Count} {o : DeadlineOwner} (held : s.Holds d o)
    (first : ∀ d' o', o' ≠ o → s.Holds d' o' → 0 < diff d' d ∨ (d' = d ∧ o.ahead o')) : s.earliest = some (d, o) := by
  obtain ⟨before, after, split⟩ := List.append_of_mem (State.mem_deadlines.mpr held)
  have sorted := s.deadlines_sorted
  rw [split] at sorted
  obtain ⟨-, tail, between⟩ := List.pairwise_append.mp sorted
  have earlier : ∀ y : Count × DeadlineOwner, y ∈ before ∨ y ∈ after → s.Holds y.1 y.2 := fun y place =>
    State.mem_deadlines.mp (by rw [split]; rcases place with h | h <;> simp [h])
  rw [State.earliest, split]
  refine pickBest_of_best (fun y place => ?_) (fun y place => ?_)
  · have later : o.ahead y.2 := List.rel_of_pairwise_cons tail place
    rcases first y.1 y.2 (fun same => DeadlineOwner.ahead_asymm later (same ▸ later)) (earlier y (.inr place)) with pos | ⟨same, -⟩
    · exact (isBefore_of_pos pos).2
    · rw [same]
      simp [isBefore]
  · have sooner : y.2.ahead o := between y place (d, o) List.mem_cons_self
    rcases first y.1 y.2 (fun same => DeadlineOwner.ahead_asymm sooner (same ▸ sooner)) (earlier y (.inl place)) with pos | ⟨-, later⟩
    · exact (isBefore_of_pos pos).1
    · exact absurd later (DeadlineOwner.ahead_asymm sooner)

/-- A PASSING entry settles CARRIED when an interval of the gate meets its passage, and otherwise by the passive mask (R65). -/
theorem State.servePassing_eq (g : State) (i : Fin 128) {en : Entry} {c : Decision} (decision : en.decision = some c)
    {a z : Count} (ha : a = shift en.lead (g.opts.o : Int)) (hz : z = shift en.trail (g.opts.o : Int)) :
    g.servePassing i en = g.settleEntry i en
      (if ((g.gate.current.any fun b => reaches z b) ||
          g.gate.history.any fun iv => reaches iv.last a && reaches z iv.first) = true then .carried
        else if ClassMask.has g.opts.passive c.cls = true then .removed else .passed) none := by
  subst ha hz
  have passage : ∀ a z, g.gate.passage a z = ((g.gate.current.any fun b => reaches z b) ||
      g.gate.history.any fun iv => reaches iv.last a && reaches z iv.first) := fun a z => by
    rw [Gate.passage]
    cases g.gate.current <;> rfl
  rw [State.servePassing, passage, decision]
  exact (apply_ite (fun v => g.settleEntry i en v none) _ _ _).symm

/-- A verdict without a cause raises its own counter alone (R66, R73). -/
theorem State.countVerdict_of_none (s : State) (v : Verdict) (c : PieceClass) : s.countVerdict v none c = s.bump (.verdict v c) := by
  cases v <;> rfl

/-- Settles O28: the
 deadline order, and what each deadline becomes. -/
theorem deadlinesServed : Obligations.DeadlinesServed := by
  unfold Obligations.DeadlinesServed
  refine ⟨?order, ?lapses, ?serves⟩
  case order =>
    intro s d o held ahead
    have holds : ∀ d o, held d o ↔ s.Holds d o := fun d o => by cases o <;> exact Iff.rfl
    have comes : ∀ a b, ahead a b ↔ a.ahead b := fun a b => by cases a <;> cases b <;> exact Iff.rfl
    refine ⟨fun mine first => ?_, fun none => ?_⟩
    · have earliest : s.earliest = some (d, o) := State.earliest_of_first ((holds d o).mp mine) fun d' o' other theirs =>
        (first d' o' other ((holds d' o').mpr theirs)).imp_right (And.imp_right (comes o o').mp)
      refine ⟨earliest, ?_⟩
      rw [State.deadlineStands, earliest]
    · have earliest : s.earliest = .none := by
        rw [State.earliest, pickBest_eq_none]
        exact List.eq_nil_iff_forall_not_mem.mpr fun x member => none x.1 x.2 ((holds _ _).mpr (State.mem_deadlines.mp member))
      refine ⟨earliest, ?_⟩
      rw [State.deadlineStands, earliest]
  case lapses =>
    intro l s e he running free lapsed
    refine exec_running he running rfl rfl ?_
    have not : e.mayTake .deadline = false := by
      refine Bool.eq_false_iff.mpr fun may => ?_
      have stands : e.deadlineStands = true := ((e.mayTake_iff .deadline).mp may).2.1
      rw [lapsed] at stands
      cases stands
    have none : e.takeRequest .deadline (TableRequest.isOf .deadline) = .none := by
      rw [State.takeRequest, free]
      exact if_neg (Bool.eq_false_iff.mp not)
    show e.request .deadline (TableRequest.isOf .deadline) = e
    rw [State.request, none]
  case serves =>
    intro l x rd d o s e g he running taken hrd earliest
    have reads : x.getD g.reading = rd := hrd.symm
    have answers : ∀ t, g.serveDeadline rd = t → exec (.deadlineRequest l) s = .next (handOn e t) := fun t served =>
      exec_running he running rfl rfl ((State.request_taken taken).trans (by rw [reads]; exact served))
    refine ⟨fun k escape => answers _ ?_, fun i en entry slot => ⟨fun c state decision => answers _ ?_,
      fun r state blind own chosen => ?_⟩⟩
    · simp only [State.serveDeadline, earliest, escape, State.dropEscape, List.eraseIdx_eq_take_drop_succ]
    · have served : g.serveDeadline rd = g.servePassing i en := by
        simp [State.serveDeadline, earliest, entry, slot, state]
      rw [served, g.servePassing_eq i decision rfl rfl, State.settleEntry_eq, decision, State.countVerdict_of_none]
      simp only [Option.map_some, Option.getD_some, Entry.notice, spanLength]
      cases en.own <;> rfl
    · have served : g.serveDeadline rd = g.decideEntry rd i en.takeGeometry := by
        simp [State.serveDeadline, earliest, entry, slot, state, State.serveExpected, blind]
      rw [Entry.takeGeometry, chosen] at served
      refine entryDecided_of ?_ (by rw [own]; rfl) (by rw [own]; rfl) (answers _ served)
      exact Entry.effective_of_report own chosen

end Sys2Proof.Machine
end

section
/-! PROOFS. The former's offers, and a piece that gains no run of a row. -/

namespace Sys2Proof.Machine

/-! ### Offers (R45) -/

/-- A run of increases of a counter, held at its greatest value. -/
theorem State.toNat_counter_bumps (c : Counter) : ∀ (n : Nat) (s : State),
    ((State.bumps c n s).counter c).toNat = min (2 ^ 32 - 1) ((s.counter c).toNat + n)
  | 0, s => by
    have := (s.counter c).isLt
    rw [State.bumps]
    omega
  | n + 1, s => by
    rw [State.bumps, State.toNat_counter_bumps c n, State.counter_bump, toNat_saturatingInc]
    omega

/-- Records offered one after another fill the queue, and the others are dropped and counted (R45). -/
theorem State.foldl_offerPiece : ∀ (rs : List PieceRecord) (t : State), rs.foldl State.offerPiece t =
    State.bumps .pieceDropped (rs.length - (4 - t.former.queue.length)) { t with
      former := { t.former with queue := t.former.queue ++ rs.take (4 - t.former.queue.length) } }
  | [], t => by simp [State.bumps]
  | r :: rs, t => by
    rw [List.foldl_cons, State.foldl_offerPiece rs, State.offerPiece]
    by_cases room : t.former.queue.length < 4
    · obtain ⟨k, left⟩ : ∃ k, 4 - t.former.queue.length = k + 1 := ⟨3 - t.former.queue.length, by omega⟩
      have less : 4 - (t.former.queue.length + 1) = k := by omega
      simp only [if_pos room, List.length_append, List.length_cons, List.length_nil, Nat.zero_add, less, left,
        List.take_succ_cons, List.append_assoc, List.singleton_append, Nat.add_sub_add_right]
    · have full : 4 - t.former.queue.length = 0 := by omega
      have kept : (t.bump .pieceDropped).former = t.former := rfl
      simp only [if_neg room, kept, full, List.take_zero, List.append_nil, Nat.sub_zero, List.length_cons, State.bumps]
      rfl

/-- Settles O19: the piece that closes, and how records are offered. -/
theorem rowClosesPiece : Obligations.RowClosesPiece := by
  unfold Obligations.RowClosesPiece
  refine ⟨?closes, ?waiting, ?offers⟩
  case closes =>
    intro l left row rest p s e he running rows pieces offers empty mean cls record f
    have runs : runsOf row = [] := runsOf_eq .nil (by simp) (by simpa using empty)
    have classified : p.classify e.opts.tMetal = cls := by
      simp only [OpenPiece.classify, classBySums, density]
      by_cases positive : 0 < p.sumI
      · simp only [positive, if_true, true_and, cls, mean]
      · simp only [positive, if_false, false_and, cls, mean]
    have recorded : p.record e.opts.r e.opts.tMetal false = record := by
      have coil : (decide (p.nc = 0) && !p.curtainMark) = decide (p.nc = 0 ∧ p.curtainMark = false) := by
        cases p.curtainMark <;> simp
      rw [OpenPiece.record, classified, coil]
    have taken : e.nextRow left = State.makeOffers { e with former := { f with offers := [record] } } left := by
      rw [State.nextRow, offers, rows]
      dsimp only
      rw [State.takeRow]
      dsimp only
      rw [pieces, runs]
      show State.makeOffers { e with
        former := { f with tag := e.former.tag + 0#12, offers := [p.record e.opts.r e.opts.tMetal false] } } left = _
      rw [BitVec.add_zero, recorded]
    have offered : State.makeOffers { e with former := { f with offers := [record] } } 0 =
        State.offerPiece { e with former := f } record := by
      have fresh : { f with offers := [] } = f := by rw [← offers]
      show State.offerPiece { e with former := { f with offers := [] } } record = _
      rw [fresh]
    refine ⟨fun whole room => ?_, fun
 whole full => ?_, fun some => ?_⟩
    · refine exec_running he running rfl rfl (taken.trans ?_)
      rw [whole, offered]
      exact if_pos room
    · refine exec_running he running rfl rfl (taken.trans ?_)
      rw [whole, offered]
      exact if_neg (not_lt.mpr full)
    · refine exec_running he running rfl rfl (taken.trans ?_)
      obtain ⟨k, rfl⟩ := Nat.exists_eq_succ_of_ne_zero some
      rw [State.makeOffers, show [record].length - (k + 1) = 0 by simp]
      rfl

  case waiting =>
    intro l left s e he running waits
    refine exec_running he running rfl rfl ?_
    show e.nextRow left = e.makeOffers left
    rw [State.nextRow]
    split
    · exact absurd ‹_› waits
    · rfl
  case offers =>
    intro left s t ht made room
    have offered : t = State.bumps .pieceDropped (made - room) { s with
        former := { s.former with
          queue := s.former.queue ++ s.former.offers.take room, offers := s.former.offers.drop made } } := by
      rw [ht, State.makeOffers, State.foldl_offerPiece, List.length_take, List.take_take]
      dsimp only
      have dropped : min (s.former.offers.length - left) s.former.offers.length - (4 - s.former.queue.length) = made - room := by
        omega
      have first : min (4 - s.former.queue.length) (s.former.offers.length - left) = room := min_comm _ _
      rw [dropped, first]
    obtain
 ⟨v, counted⟩ := State.bumps_eq .pieceDropped (made - room) { s with
        former := { s.former with
          queue := s.former.queue ++ s.former.offers.take room, offers := s.former.offers.drop made } }
    refine ⟨?_, ?_, ?_, fun c other => ?_⟩
    · rw [offered, counted]
    · rw [offered, counted]
    · rw [offered, State.toNat_counter_bumps]
      rfl
    · rw [offered, State.counter_bumps_of_ne other]
      rfl

end Sys2Proof.Machine
end

section
/-! PROOFS. Frames: the receiver's tests, a stuck line, and what the encoder sends. -/

namespace Sys2Proof.Machine

/-! ### Bytes read (R127, R128, R130) -/

/-- The kind's length, as section 9.2 lists it (R129). -/
theorem kindLength_eq (kind : Nat) :
    kindLength kind = if kind = 1 then some 8 else if kind = 2 then some 14 else if kind = 3 then some 4 else none := by
  unfold kindLength
  split <;> simp_all

/-- The frame check, bit by bit (R130). -/
theorem crc16_eq (bs : List Byte) : crc16 bs = bs.foldl (fun (reg : BitVec 16) x => (List.range 8).foldl (fun reg i =>
    (reg <<< 1) ^^^ (if (reg.getLsbD 15) != x.getLsbD (7 - i) then 0x1021 else 0)) reg) 0xFFFF := by
  have bitwise : ∀ (reg : BitVec 16) (d : Bool),
      crc16Bit reg d = (reg <<< 1) ^^^ (if (reg.getLsbD 15) != d then 0x1021 else 0) := fun reg d => by
    unfold crc16Bit
    split
    · rfl
    · exact (BitVec.xor_zero).symm
  rw [crc16]
  simp only [bitwise]
  rfl

/-- The bits of a data byte, most significant first (R128). -/
theorem dataByte_eq (b : LineByte) : dataByte b = BitVec.ofNat 8 (((List.range 8).map fun i =>
    2 ^ (7 - i) * bit (majority b.bits[Fin.ofNat 10 (i + 1)])).sum) := by
  refine congrArg (BitVec.ofNat 8) ?_
  have terms : ((List.range 8).map fun i => 2 ^ (7 - i) * bit (majority b.bits[Fin.ofNat 10 (i + 1)])).sum =
      128 * bit (majority b.bits[1]) + (64 * bit (majority b.bits[2]) + (32 * bit (majority b.bits[3]) +
        (16 * bit (majority b.bits[4]) + (8 * bit (majority b.bits[5]) + (4 * bit (majority b.bits[6]) +
          (2 * bit (majority b.bits[7]) + (1 * bit (majority b.bits[8]) + 0))))))) := rfl
  rw [terms]
  simp only [List.foldl_cons, List.foldl_nil]
  omega

/-- The two bytes of a check (R130). -/
theorem checkBytes_eq_iff (high low : Byte) (c : BitVec 16) : [high, low] = checkBytes c ↔ high ++ low = c := by
  have joined : (high ++ low).toNat = high.toNat * 256 + low.toNat := by
    rw [BitVec.toNat_append, ← Nat.shiftLeft_add_eq_or_of_lt low.isLt, Nat.shiftLeft_eq]
  have range := c.isLt
  have highRange := high.isLt
  have lowRange := low.isLt
  rw [checkBytes, two_eq, List.cons.injEq, List.cons.injEq, ← BitVec.toNat_inj, ← BitVec.toNat_inj, ← BitVec.toNat_inj, joined,
    BitVec.toNat_ofNat, BitVec.toNat_ofNat]
  constructor
  · rintro ⟨first, second, -⟩
    omega
  · intro whole
    exact ⟨by omega, by omega, rfl⟩

/-! ### The receiver's tests (R135, R136) -/

section

variable {b : LineByte} {got : List Byte}

/-- A byte that neither ends the frame nor fails a test is followed by the next (R135). -/
theorem receive_next (rest : List LineByte) (glitch : isGlitch b = false) (edge : got.isEmpty = true ∨ b.edge ≤ 192)
    (stop : stopGood b = true)
    (unfinished : ∀ kl, (got ++ [dataByte b])[1]? = some kl →
      kindLength (kindOf kl) = some (lenOf kl) ∧ (got ++ [dataByte b]).length < lenOf kl + 4) :
    receive (b :: rest) got = receive rest (got ++ [dataByte b]) := by
  rw [receive_step rest glitch edge stop]
  match all : got ++ [dataByte b] with
  | [] => rfl
  | [_] => rfl
  | arb :: kl :: body =>
    obtain ⟨length, short⟩ := unfinished kl (by rw [all]; rfl)
    rw [all] at short
    have more : ¬body.length = lenOf kl + 2 := by
      simp only [List.length_cons] at short
      omega
    dsimp only
    rw [length]
    dsimp only
    rw [if_neg (not_not.mpr rfl), if_neg more]

/-- Bytes that follow in time and leave the frame unfinished are read one by one (R135). -/
theorem receive_read : ∀ (read rest : List LineByte) (got : List Byte), (∀ x ∈ read, isGlitch x = false ∧ stopGood x = true) →
    (∀ x ∈ read, x.edge ≤ 192) →
    (∀ kl, (got ++ read.map dataByte)[1]? = some kl →
      kindLength (kindOf kl) = some (lenOf kl) ∧ (got ++ read.map dataByte).length < lenOf kl + 4) →
    receive (read ++ rest) got = receive rest (got ++ read.map dataByte)
  | [], rest, got, _, _, _ => by simp
  | x :: xs, rest, got, good, edges, unfinished => by
    obtain ⟨glitch, stop⟩ := good x List.mem_cons_self
    have split : got ++ (x :: xs).map dataByte = got ++ [dataByte x] ++ xs.map dataByte := by simp
    rw [split] at unfinished ⊢
    rw [List.cons_append, receive_next _ glitch (.inr (edges x List.mem_cons_self)) stop fun kl first => ?_]
    · exact receive_read xs rest _ (fun y place => good y (List.mem_cons_of_mem _ place))
        (fun y place => edges y (List.mem_cons_of_mem _ place)) unfinished
    · obtain ⟨inRange, -⟩ := List.getElem?_eq_some_iff.mp first
      obtain ⟨length, short⟩ := unfinished kl (by rw [List.getElem?_append_left inRange, first])
      refine ⟨length, ?_⟩
      rw [List.length_append] at short
      omega

end

/-- The bytes of a frame read so far, from its first (R135). -/
theorem receive_read_first {read : List LineByte} (good : ∀ x ∈ read, isGlitch x = false ∧ stopGood x = true)
    (edges : ∀ x ∈ read.drop 1, x.edge ≤ 192) (unfinished : ∀ kl, (read.map dataByte)[1]? = some kl →
      kindLength (kindOf kl) = some (lenOf kl) ∧ (read.map dataByte).length < lenOf kl + 4) (rest : List LineByte) :
    receive (read ++ rest) [] = receive rest (read.map dataByte) := by
  cases read with
  | nil => rfl
  | cons x xs =>
    obtain ⟨glitch, stop⟩ := good x List.mem_cons_self
    rw [List.cons_append, receive_next _ glitch (.inl rfl) stop (by simp)]
    exact receive_read xs rest _ (fun y place => good y (List.mem_cons_of_mem _ place)) edges unfinished

/-- A byte is late, or its stop bit is bad (R128, R135). -/
theorem receive_fails {b : LineByte} (after : List LineByte) {got : List Byte} (glitch : isGlitch b = false) :
    (got ≠ [] → 192 < b.edge → receive (b :: after) got = .discarded .gap) ∧
      (got = [] ∨ b.edge ≤ 192 → stopGood b = false → receive (b :: after) got = .discarded .framing) := by
  refine ⟨fun some late => ?_, fun inTime stop => ?_⟩
  · have some' : got.isEmpty = false := List.isEmpty_eq_false_iff.mpr some
    simp [receive, glitch, some', late]
  · have edge : (!got.isEmpty && decide (192 < b.edge)) = false := by
      rcases inTime with rfl | inTime
      · rfl
      · rw [decide_eq_false (not_lt.mpr inTime), Bool.and_false]
    simp [receive, glitch, edge, stop]

/-- Settles O39: a stuck line, a discarded frame, and the tests in their order. -/
theorem faultsAndDiscards : Obligations.FaultsAndDiscards := by
  unfold Obligations.FaultsAndDiscards
  refine ⟨fun l s e he running => ⟨fun out stuck kept => ?stuck, fun faulty clear => ?clear, fun few => ?few, fun early => ?early⟩,
    fun l rx err s e he running receiving discarded => ?discard, fun before after b got glitch => ?glitch, ?tests⟩
  case stuck =>
    refine exec_running he running rfl rfl ((if_pos ⟨out, stuck⟩).trans ?_)
    have queue : e.link.queue.map (fun n => { n with attempted := false }) = e.link.queue :=
      List.map_congr_left (g := id) (fun n place => by rw [← kept n place]; rfl) |>.trans (List.map_id _)
    have noAttempt : (e.link.queue.any fun n => n.attempted && n.isHello) = false :=
      List.any_eq_false.mpr fun n place => by rw [kept n place]; exact Bool.false_ne_true
    have keeps : e.link.keepAttempted = e.link := by
      rw [Link.keepAttempted, noAttempt, queue]
      rfl
    rw [keeps]
  case clear =>
    refine exec_running he running rfl rfl (congrArg (fun k => { e with link := k }) ?_)
    exact if_pos ⟨faulty, clear⟩
  case few =>
    exact exec_running he running rfl rfl (if_neg fun both => absurd both.2 (not_le.mpr few))
  case early =>
    refine exec_running he running rfl rfl (congrArg (fun k => { e with link := k }) (a₂ := e.link) ?_)
    exact if_neg fun both => absurd both.2 (not_le.mpr early)
  case discard =>
    refine exec_running he running rfl rfl ((if_pos receiving).trans ?_)
    rw [discarded]
    cases err <;> rfl
  case glitch => exact receive_glitch (decide_eq_true glitch) after before got
  case tests =>
    intro read after b sampled value check lengthOf bytes k kind len good edges unfinished start
    have valueEq : value = dataByte := funext fun x => (dataByte_eq x).symm
    have bytesEq : bytes = read.map dataByte := by rw [← valueEq]
    have lengthEq : ∀ kind, kindLength kind = lengthOf kind := kindLength_eq
    have reads : ∀ rest, receive (read ++ rest) [] = receive rest bytes := fun rest => by
      rw [bytesEq]
      refine receive_read_first good edges (fun kl first => ?_) rest
      rw [lengthEq, ← bytesEq]
      exact unfinished kl (by rw [bytesEq]; exact first)
    have some : k ≠ 0 → bytes ≠ [] := fun many none => many (by rw [show k = bytes.length from rfl, none]; rfl)
    refine ⟨fun many => ?_, fun many late => ?_, fun inTime => ⟨fun bad => ?_, fun stop => ?_⟩⟩
    · rw [← List.append_nil read, reads]
      exact if_neg (by simpa using some many)
    · rw [reads]
      exact (receive_fails after start).1 (some many) late
    all_goals
      have inTime' : bytes = [] ∨ b.edge ≤ 192 := inTime.imp_left List.length_eq_zero_iff.mp
    · rw [reads]
      exact (receive_fails after start).2 inTime' bad
    · have decides := receive_step (got := bytes) after start (inTime'.imp_left List.isEmpty_iff.mpr) stop
      rw [← valueEq] at decides
      refine ⟨fun one unknown => ?_, fun n one length other => ?_, fun arb kl payload high low frame whole => ?_⟩
      · obtain ⟨arb, only⟩ := List.length_eq_one_iff.mp one
        rw [reads, decides, only]
        simp only [List.singleton_append]
        rw [show kindLength (kindOf (value b)) = none from (lengthEq _).trans unknown]
      · obtain ⟨arb, only⟩ := List.length_eq_one_iff.mp one
        rw [reads, decides, only]
        simp only [List.singleton_append]
        rw [show kindLength (kindOf (value b)) = .some n from (lengthEq _).trans length]
        exact if_pos other
      · have second : bytes[1]? = .some kl := by
          have long : 1 < bytes.length := by
            have := congrArg List.length frame
            simp at this
            omega
          rw [← List.getElem?_append_left long (l₂ := [value b]), frame]
          rfl
        obtain ⟨length, -⟩ := unfinished kl second
        rw [reads, decides, frame]
        simp only [List.cons_append]
        rw [show kindLength (kindOf kl) = .some payload.length from (lengthEq _).trans (length.trans (by rw [whole]))]
        dsimp only
        have same : lenOf kl = payload.length := whole.symm
        rw [if_neg (not_not.mpr same), if_pos (by simp), List.drop_left, List.take_left]
        refine if_congr ?_ rfl rfl
        rw [checkBytes_eq_iff, crc16_eq]


/-! ### Frames sent (R128, R129, R130) -/

/-- What a clean line carries is received as it was sent (R135, R136). -/
theorem receive_cleanFrame {f : TxFrame} (length : kindLength (kindOf f.kindLen) = some f.payload.length)
    (same : lenOf f.kindLen = f.payload.length) : receive (cleanFrame f) [] = .valid f.arb f.kindLen f.payload := by
  obtain ⟨arb, kl, payload⟩ := f
  dsimp only at length same ⊢
  obtain ⟨high, low, check⟩ : ∃ high low, checkBytes (crc16 (arb :: kl :: payload)) = [high, low] := ⟨_, _, two_eq _⟩
  have readBack : ∀ bs : List Byte, (bs.map cleanByte).map dataByte = bs := fun bs => by
    rw [List.map_map]
    exact List.map_congr_left (g := id) (fun b _ => dataByte_cleanByte b) |>.trans (List.map_id _)
  have frame : cleanFrame ⟨arb, kl, payload⟩ = (arb :: kl :: payload ++ [high]).map cleanByte ++ [cleanByte low] := by
    simp [cleanFrame, TxFrame.bytes, check]
  have clean : ∀ x ∈ (arb :: kl :: payload ++ [high]).map cleanByte, isGlitch x = false ∧ stopGood x = true ∧ x.edge ≤ 192 :=
    fun x place => by
      obtain ⟨b, -, rfl⟩ := List.mem_map.mp place
      exact ⟨isGlitch_cleanByte b, stopGood_cleanByte b, (by decide : 160 ≤ 192)⟩
  have unfinished : ∀ second, (arb :: kl :: payload ++ [high])[1]? = some second →
      kindLength (kindOf second) = some (lenOf second) ∧ (arb :: kl :: payload ++ [high]).length < lenOf second + 4 := fun second first => by
    obtain rfl : kl = second := by simpa using first
    exact ⟨by rw [length, same], by simp [same]⟩
  rw [frame, receive_read_first (fun x place => ⟨(clean x place).1, (clean x place).2.1⟩)
    (fun x place => (clean x (List.mem_of_mem_drop place)).2.2) (by rw [readBack]; exact unfinished), readBack,
    receive_step [] (isGlitch_cleanByte low) (.inr (by decide : 160 ≤ 192)) (stopGood_cleanByte low), dataByte_cleanByte]
  simp only [List.cons_append, List.append_assoc, List.nil_append]
  rw [length]
  dsimp only
  rw [if_neg (not_not.mpr same), if_pos (by simp), List.drop_left, List.take_left, if_pos check.symm]

/-- The length of each kind's payload (R129). -/
theorem Body.length_payload (body : Body) (linepos : Count) :
    kindLength (kindOf body.kindLen) = some (body.payload linepos).length ∧ lenOf body.kindLen = (body.payload linepos).length := by
  have kinds : ∀ k : Nat × Nat, k = (1, 8) ∨ k = (2, 14) ∨ k = (3, 4) →
      kindLength (kindOf (BitVec.ofNat 8 (32 * k.1 + k.2))) = some k.2 ∧ lenOf (BitVec.ofNat 8 (32 * k.1 + k.2)) = k.2 := by
    rintro _ (rfl | rfl | rfl) <;> decide
  cases body with
  | hello h => exact kinds (1, 8) (.inl rfl)
  | piece p => exact kinds (2, 14) (.inr (.inl rfl))
  | escape x => exact kinds (3, 4) (.inr (.inr rfl))

/-! #### Codes read back (section 9.2) -/

/-- A class code with unused bits is read back. -/
theorem PieceClass.ofCode_byte (c : PieceClass) : PieceClass.ofCode ((BitVec.ofNat 8 c.code).toNat % 8) = some c := by
  cases c <;> rfl

/-- A verdict code with unused bits is read back. -/
theorem Verdict.ofCode_byte (v : Verdict) : Verdict.ofCode ((BitVec.ofNat 8 v.code).toNat % 8) = some v := by
  cases v <;> rfl

/-- The outlet kind and the SCAN bit are read back from their byte. -/
theorem OutletKind.ofCode_byte (k : OutletKind) (scan : Bool) :
    OutletKind.ofCode ((BitVec.ofNat 8 (64 * k.code + 32 * bit scan)).toNat / 64) = some k ∧
      (BitVec.ofNat 8 (64 * k.code + 32 * bit scan)).getLsbD 5 = scan := by
  cases k <;> cases scan <;> decide

/-- Station and belt state are read back from their byte. -/
theorem StationState.ofCode_byte (x : StationState) (b : BeltState) :
    StationState.ofCode ((BitVec.ofNat 8 (64 * x.code + 16 * b.code)).toNat / 64) = x ∧
      BeltState.ofCode ((BitVec.ofNat 8 (64 * x.code + 16 * b.code)).toNat / 16 % 4) = b := by
  cases x <;> cases b <;> decide

/-- Outlet state and mode are read back from their byte. -/
theorem OutletState.ofCode_byte (x : OutletState) (m : Mode) :
    OutletState.ofCode ((BitVec.ofNat 8 (64 * x.code + 32 * m.code)).toNat / 64) = x ∧
      Mode.ofCode ((BitVec.ofNat 8 (64 * x.code + 32 * m.code)).toNat / 32 % 2) = m := by
  cases x <;> cases m <;> decide

/-- The bytes of a PIECE (section 9.2). -/
theorem piecePayload_eq (n : PieceNotice) (linepos : Count) : piecePayload n linepos =
    [BitVec.ofNat 8 ((16 * n.tag.toNat + n.flags.code) / 256), BitVec.ofNat 8 (16 * n.tag.toNat + n.flags.code),
      BitVec.ofNat 8 (linepos.toNat / 65536), BitVec.ofNat 8 (linepos.toNat / 256), BitVec.ofNat 8 linepos.toNat,
      BitVec.ofNat 8 (n.length / 256), BitVec.ofNat 8 n.length, BitVec.ofNat 8 n.first, BitVec.ofNat 8 n.last,
      BitVec.ofNat 8 n.centroid, BitVec.ofNat 8 (n.area / 256), BitVec.ofNat 8 n.area, BitVec.ofNat 8 n.cls.code,
      BitVec.ofNat 8 n.verdict.code] := by
  rw [piecePayload, two_eq, two_eq, two_eq, three_eq]
  rfl

/-- The four flags as a number of four bits (section 9.2). -/
theorem PieceFlags.code_lt (f : PieceFlags) : f.code < 16 := by
  obtain ⟨a, b, c, d⟩ := f
  cases a <;> cases b <;> cases c <;> cases d <;> decide

/-- The four flags of a byte are those written in its low bits (section 9.2). -/
theorem PieceFlags.ofByte_code (f : PieceFlags) (t : Nat) : PieceFlags.ofByte (BitVec.ofNat 8 (16 * t + f.code)) = f := by
  have low : ∀ k < 4, (BitVec.ofNat 8 (16 * t + f.code)).getLsbD k = f.code.testBit k := fun k small => by
    rw [BitVec.getLsbD_ofNat, decide_eq_true (by omega : k < 8), Bool.true_and,
      show 16 * t + f.code = 2 ^ 4 * t + f.code from rfl, Nat.testBit_two_pow_mul_add _ f.code_lt, if_pos small]
  rw [PieceFlags.ofByte, low 3 (by decide), low 2 (by decide), low 1 (by decide), low 0 (by decide)]
  obtain ⟨a, b, c, d⟩ := f
  cases a <;> cases b <;> cases c <;> cases d <;> rfl

/-- A number of two bytes is read back (section 9.2). -/
theorem twoBytes_eq {v : Nat} (small : v < 65536) : 256 * (BitVec.ofNat 8 (v / 256)).toNat + (BitVec.ofNat 8 v).toNat = v := by
  rw [BitVec.toNat_ofNat, BitVec.toNat_ofNat]
  omega

/-- A byte holds a small number. -/
theorem toNat_byte_mod {v m : Nat} (small : v < m) (byte : m ≤ 256) : (BitVec.ofNat 8 v).toNat % m = v := by
  rw [BitVec.toNat_ofNat, Nat.mod_eq_of_lt (by omega : v < 2 ^ 8), Nat.mod_eq_of_lt small]

/-- A PIECE within its ranges reads as what was put into it (R156). -/
theorem recordOfPayload_piecePayload {p : PieceNotice} (inRange : p.inRange = true) (linepos : Count) (n : Fin 16) (sender : Nat)
    (latch : Count) : recordOfPayload (piecePayload p linepos) n sender latch = some
      { station := n, s := sender, tag := p.tag, flags := p.flags, linepos := linepos, length := p.length
        first := p.first, last := p.last, centroid := p.centroid, area := p.area, cls := p.cls, verdict := p.verdict
        latch := latch } := by
  simp only [PieceNotice.inRange, Bool.and_eq_true, decide_eq_true_eq] at inRange
  obtain ⟨⟨⟨⟨⟨⟨some, short⟩, area⟩, small⟩, first⟩, last⟩, lanes⟩ := inRange
  have bytes := piecePayload_eq p linepos
  have whole : (piecePayload p linepos).length = 14 := rfl
  have tagRange := p.tag.isLt
  have flagsRange := p.flags.code_lt
  have lineRange := linepos.isLt
  have cls : PieceClass.ofCode ((payloadByte (piecePayload p linepos) 12).toNat % 8) = .some p.cls := by
    rw [bytes]
    exact p.cls.ofCode_byte
  have verdict : Verdict.ofCode ((payloadByte (piecePayload p linepos) 13).toNat % 8) = .some p.verdict := by
    rw [bytes]
    exact p.verdict.ofCode_byte
  have tag : BitVec.ofNat 12 (payloadNum (piecePayload p linepos) 0 2 / 16) = p.tag := by
    rw [payloadNum_two (by omega), bytes]
    refine BitVec.eq_of_toNat_eq ?_
    show (BitVec.ofNat 12 ((256 * (BitVec.ofNat 8 _).toNat + (BitVec.ofNat 8 _).toNat) / 16)).toNat = _
    rw [twoBytes_eq (by omega), BitVec.toNat_ofNat]
    omega
  have position : BitVec.ofNat 24 (payloadNum (piecePayload p linepos) 2 3) = linepos := by
    rw [payloadNum_three (by omega), bytes]
    refine BitVec.eq_of_toNat_eq ?_
    show (BitVec.ofNat 24 (65536 * (BitVec.ofNat 8 (linepos.toNat / 65536)).toNat +
      256 * (BitVec.ofNat 8 (linepos.toNat / 256)).toNat + (BitVec.ofNat 8 linepos.toNat).toNat)).toNat = _
    simp only [BitVec.toNat_ofNat]
    omega
  have length : payloadNum (piecePayload p linepos) 5 2 = p.length := by
    rw [payloadNum_two (by omega), bytes]
    exact twoBytes_eq short
  have areas : payloadNum (piecePayload p linepos) 10 2 = p.area := by
    rw [payloadNum_two (by omega), bytes]
    exact twoBytes_eq (by omega)
  have lane : ∀ v < 32, (BitVec.ofNat 8 v).toNat % 32 = v := fun v low => toNat_byte_mod low (by decide)
  have firstLane : (payloadByte (piecePayload p linepos) 7).toNat % 32 = p.first := by
    rw [bytes]
    exact lane _ (by omega)
  have lastLane : (payloadByte (piecePayload p linepos) 8).toNat % 32 = p.last := by
    rw [bytes]
    exact lane _ (by omega)
  have middleLane : (payloadByte (piecePayload p linepos) 9).toNat % 32 = p.centroid := by
    rw [bytes]
    exact lane _ (by omega)
  have flags : PieceFlags.ofByte (payloadByte (piecePayload p linepos) 1) = p.flags := by
    rw [bytes]
    exact p.flags.ofByte_code _
  rw [recordOfPayload, cls, verdict, tag, position, length, areas, firstLane, lastLane, middleLane, flags]
  exact if_neg (by dsimp only; omega)

/-- A HELLO within its ranges reads as what was put into it (section 9.2). -/
theorem helloOfPayload_helloPayload {h : HelloFields} (inRange : h.inRange = true) : helloOfPayload (helloPayload h) = some h := by
  simp only [HelloFields.inRange, Bool.and_eq_true, decide_eq_true_eq] at inRange
  obtain ⟨⟨place, offset⟩, step⟩ := inRange
  have bytes : helloPayload h = [BitVec.ofNat 8 (h.s / 256), BitVec.ofNat 8 h.s, BitVec.ofNat 8 (h.o / 256), BitVec.ofNat 8 h.o,
      BitVec.ofNat 8 (64 * h.kind.code + 32 * bit h.scan), BitVec.ofNat 8 h.step,
      BitVec.ofNat 8 (64 * h.station.code + 16 * h.belt.code), BitVec.ofNat 8 (64 * h.outlet.code + 32 * h.mode.code)] := by
    rw [helloPayload, two_eq, two_eq]
    rfl
  have whole : (helloPayload h).length = 8 := rfl
  have atS : payloadNum (helloPayload h) 0 2 = h.s := by
    rw [payloadNum_two (by omega), bytes]
    exact twoBytes_eq place
  have atO : payloadNum (helloPayload h) 2 2 % 4096 = h.o := by
    rw [payloadNum_two (by omega), bytes]
    exact (congrArg (· % 4096) (twoBytes_eq (by omega))).trans (Nat.mod_eq_of_lt offset)
  have kind : OutletKind.ofCode ((payloadByte (helloPayload h) 4).toNat / 64) = some h.kind := by
    rw [bytes]
    exact (h.kind.ofCode_byte h.scan).1
  have scan : (payloadByte (helloPayload h) 4).getLsbD 5 = h.scan := by
    rw [bytes]
    exact (h.kind.ofCode_byte h.scan).2
  have steps : (payloadByte (helloPayload h) 5).toNat % 4 = h.step := by
    rw [bytes]
    exact toNat_byte_mod step (by decide)
  have station : StationState.ofCode ((payloadByte (helloPayload h) 6).toNat / 64) = h.station := by
    rw [bytes]
    exact (h.station.ofCode_byte h.belt).1
  have belt : BeltState.ofCode ((payloadByte (helloPayload h) 6).toNat / 16 % 4) = h.belt := by
    rw [bytes]
    exact (h.station.ofCode_byte h.belt).2
  have outlet : OutletState.ofCode ((payloadByte (helloPayload h) 7).toNat / 64) = h.outlet := by
    rw [bytes]
    exact (h.outlet.ofCode_byte h.mode).1
  have mode : Mode.ofCode ((payloadByte (helloPayload h) 7).toNat / 32 % 2) = h.mode := by
    rw [bytes]
    exact (h.outlet.ofCode_byte h.mode).2
  rw [helloOfPayload, kind, atS, atO, scan, steps, station, belt, outlet, mode]
  rfl

/-- An ESCAPE reads as what was put into it (section 9.2). -/
theorem escapeOfPayload_escapePayload (x : EscapeNotice) : escapeOfPayload (escapePayload x) = some x := by
  have bytes : escapePayload x =
      [BitVec.ofNat 8 x.target.val, BitVec.ofNat 8 (x.tag.toNat / 256), BitVec.ofNat 8 x.tag.toNat, BitVec.ofNat 8 x.cls.code] := by
    rw [escapePayload, two_eq]
    rfl
  have whole : (escapePayload x).length = 4 := rfl
  have tagRange := x.tag.isLt
  have targetRange := x.target.isLt
  have cls : PieceClass.ofCode ((payloadByte (escapePayload x) 3).toNat % 8) = some x.cls := by
    rw [bytes]
    exact x.cls.ofCode_byte
  have target : Fin.ofNat 16 (payloadByte (escapePayload x) 0).toNat = x.target := by
    rw [bytes]
    exact Fin.ext (toNat_byte_mod x.target.isLt (by decide))
  have tag : BitVec.ofNat 12 (payloadNum (escapePayload x) 1 2) = x.tag := by
    rw [payloadNum_two (by omega), bytes]
    refine BitVec.eq_of_toNat_eq ?_
    rw [BitVec.toNat_ofNat]
    exact (congrArg (· % 2 ^ 12) (twoBytes_eq (by omega))).trans (Nat.mod_eq_of_lt tagRange)
  rw [escapeOfPayload, cls, target, tag]
  rfl

/-- Settles O40: the frame, and each payload. -/
theorem sentFramesAreReceived : Obligations.SentFramesAreReceived := by
  unfold Obligations.SentFramesAreReceived
  intro arb body linepos
  obtain ⟨length, same⟩ := body.length_payload linepos
  refine ⟨receive_cleanFrame length same, fun h hello inRange => ?_, fun p piece inRange n sender latch => ?_, fun x escape => ?_⟩
  · rw [hello]
    exact helloOfPayload_helloPayload inRange
  · rw [piece]
    exact recordOfPayload_piecePayload inRange linepos n sender latch
  · rw [escape]
    exact escapeOfPayload_escapePayload x

end Sys2Proof.Machine
end

section
/-! PROOFS. A row taken: its groups, the pieces that gain runs, and the pieces that close. -/

namespace Sys2Proof.Machine

/-! ### The groups of a row (R34, R35) -/

/-- Two runs share a holder when both contact it (R35). -/
theorem linked_iff {holders : List (List LaneRun)} {r r' : LaneRun} :
    linked holders r r' = true ↔ ∃ held ∈ holders, r.contactsAny held = true ∧ r'.contactsAny held = true := by
  simp [linked]

/-- A group contacts a holder when one of its runs does (R35). -/
theorem touches_iff {g held : List LaneRun} : touches g held = true ↔ ∃ r ∈ g, r.contactsAny held = true := by
  simp [touches]

/-- Groups that cover a row, share no holder and are each held together by chains are the row's groups (R34, R35, R37). -/
theorem groupsOf_runsOf {row : RowRecord} {holders groups : List (List LaneRun)}
    (range : ∀ r ∈ groups.flatten, r.lo ≤ r.hi ∧ r.hi < 32)
    (sep : groups.flatten.Pairwise fun r r' => r.hi + 1 < r'.lo ∨ r'.hi + 1 < r.lo)
    (cover : ∀ n : Fin 32, row.cells[n].occupied = groups.flatten.any fun r => decide (r.lo ≤ n.val ∧ n.val ≤ r.hi))
    (each : ∀ g ∈ groups, g ≠ [] ∧ g.Pairwise fun r r' => r.lo < r'.lo)
    (order : groups.Pairwise fun g g' => ∀ r ∈ g.head?, ∀ r' ∈ g'.head?, r.lo < r'.lo)
    (apart : groups.Pairwise fun g g' => ∀ held ∈ holders, ¬(touches g held = true ∧ touches g' held = true))
    (chains : ∀ g ∈ groups, ∀ part : LaneRun → Bool, (∃ r ∈ g, part r = true) → (∃ r ∈ g, part r = false) →
      ∃ held ∈ holders, ∃ r ∈ g, ∃ r' ∈ g, part r = true ∧ part r' = false ∧ r.contactsAny held = true ∧
        r'.contactsAny held = true) :
    groupsOf (runsOf row) holders = groups := by
  obtain ⟨runs, perm, sorted⟩ : ∃ runs : List LaneRun, runs.Perm groups.flatten ∧ runs.Pairwise fun r r' => r.lo ≤ r'.lo :=
    ⟨groups.flatten.mergeSort fun r r' => decide (r.lo ≤ r'.lo), List.mergeSort_perm .., by
      have := List.pairwise_mergeSort (le := fun r r' : LaneRun => decide (r.lo ≤ r'.lo)) (by simp; omega) (by simp; omega)
        groups.flatten
      simpa using this⟩
  have member : ∀ r, r ∈ runs ↔ ∃ g ∈ groups, r ∈ g := fun r => by rw [perm.mem_iff, List.mem_flatten]
  have inRange : ∀ r ∈ runs, r.lo ≤ r.hi ∧ r.hi < 32 := fun r place => range r (perm.mem_iff.mp place)
  have far : runs.Pairwise fun r r' => r.hi + 1 < r'.lo := by
    have sepRuns := (perm.pairwise_iff (R := fun r r' => r.hi + 1 < r'.lo ∨ r'.hi + 1 < r.lo) Or.symm).mpr sep
    refine (sepRuns.and sorted).imp_of_mem fun {r r'} place place' h => ?_
    have := inRange r place
    have := inRange r' place'
    omega
  have rising : runs.Pairwise fun r r' => r.lo < r'.lo := far.imp_of_mem fun {r r'} place _ h => by
    have := inRange r place
    omega
  have isRow : runsOf row = runs := runsOf_eq far inRange fun n => (cover n).trans (perm.symm.any_eq)
  rw [isRow]
  refine groupsOf_eq rising (fun g place => ?_) order fun r place => (member r).mp place
  obtain ⟨some, lanes⟩ := each g place
  refine ⟨some, lanes, fun r inside => (member r).mpr ⟨g, place, inside⟩, fun r inRow r' inside shares => ?_, fun part inPart notAll => ?_⟩
  · obtain ⟨g', place', inside'⟩ := (member r).mp inRow
    obtain ⟨held, holds, meets, meets'⟩ := linked_iff.mp shares
    by_cases same : g' = g
    · exact same ▸ inside'
    · have symm : Std.Symm fun g g' : List LaneRun => ∀ held ∈ holders, ¬(touches g held = true ∧ touches g' held = true) :=
        ⟨fun _ _ h held holds both => h held holds both.symm⟩
      have noShare := apart.forall place' place same
      exact absurd ⟨touches_iff.mpr ⟨r, inside', meets⟩, touches_iff.mpr ⟨r', inside, meets'⟩⟩ (noShare held holds)
  · obtain ⟨held, holds, r, inside, r', inside', within, beyond, meets, meets'⟩ := chains g place part inPart notAll
    exact ⟨r, inside, r', inside', within, beyond, linked_iff.mpr ⟨held, holds, meets, meets'⟩⟩

/-! ### What becomes of the open pieces (R36, R39) -/

/-- The piece that a fate leaves open. -/
def PieceFate.gained : PieceFate → Option OpenPiece
  | .gains p => some p
  | .merged => none
  | .ends _ => none

/-- The piece that a fate closes. -/
def PieceFate.ended : PieceFate → Option (OpenPiece × Bool)
  | .ends p => some (p, false)
  | .merged => none
  | .gains _ => none

/-- The fates of the open pieces (R36, R39). -/
def Former.fates (f : Former) (row : RowRecord) (groups : List (List LaneRun)) : List PieceFate :=
  f.pieces.zipIdx.map fun x => f.fateOf row groups x.1 x.2

/-- A row taken, by the fates of the open pieces (R33 to R40). -/
theorem State.takeRow_eq (s : State) (row : RowRecord) : s.takeRow row =
    (let groups := groupsOf (runsOf row) (s.former.pieces.map OpenPiece.runs ++ s.former.longRuns)
     let all := (s.former.fates row groups).filterMap PieceFate.gained ++ s.former.opened row groups
     let long := all.filter fun p => decide (longRows ≤ p.rows)
     { s with former := { s.former with
       pieces := all.filter fun p => !decide (longRows ≤ p.rows), longRuns := long.map OpenPiece.runs
       tag := s.former.tag + BitVec.ofNat 12 (s.former.opened row groups).length
       offers := (closingOrder ((s.former.fates row groups).filterMap PieceFate.ended ++ long.map fun p => (p, true))).map fun p =>
         p.1.record s.opts.r s.opts.tMetal p.2 } }) := rfl

/-- The pieces that gain runs of a row, in their order (R36, R38). -/
def Former.joined (f : Former) (row : RowRecord) (groups : List (List LaneRun)) : List OpenPiece :=
  f.pieces.zipIdx.filterMap fun x => (f.fateOf row groups x.1 x.2).gained

/-- The pieces that no group contacts (R39). -/
def Former.ended (f : Former) (groups : List (List LaneRun)) : List OpenPiece :=
  f.pieces.filter fun p => !groups.any fun g => touches g p.runs

/-- What is read off a list with its places, but not from the places. -/
theorem filterMap_zipIdx {α β : Type} {f : α × Nat → Option β} {h : α → Option β} (same : ∀ x, f x = h x.1) (xs : List α) :
    xs.zipIdx.filterMap f = xs.filterMap h := by
  rw [show f = h ∘ Prod.fst from funext same, ← List.filterMap_map, List.zipIdx_map_fst]

/-- Choosing and changing in one pass. -/
theorem filterMap_ite {α β : Type} (p : α → Bool) (f : α → β) (xs : List α) :
    (xs.filterMap fun x => if p x = true then some (f x) else none) = (xs.filter p).map f := by
  induction xs with
  | nil => rfl
  | cons x xs ih =>
    rw [List.filterMap_cons, List.filter_cons]
    cases p x <;> simp [ih]

/-- The pieces that close are those that no group contacts (R39). -/
theorem Former.fates_ended (f : Former) (row : RowRecord) (groups : List (List LaneRun)) :
    (f.fates row groups).filterMap PieceFate.ended = (f.ended groups).map fun p => (p, false) := by
  have fate : ∀ p k, (f.fateOf row groups p k).ended = if (!groups.any fun g => touches g p.runs) = true then some (p, false) else none := by
    intro p k
    rw [Former.fateOf]
    cases found : groups.find? fun g => touches g p.runs with
    | none =>
      have none : (groups.any fun g => touches g p.runs) = false := by simpa using found
      rw [none]
      rfl
    | some g =>
      have some : (groups.any fun g => touches g p.runs) = true :=
        List.any_eq_true.mpr ⟨g, List.mem_of_find?_eq_some found, List.find?_some (p := fun g => touches g p.runs) found⟩
      rw [some]
      dsimp only
      split <;> rfl
  rw [Former.fates, List.filterMap_map]
  exact (filterMap_zipIdx (fun x => fate x.1 x.2) f.pieces).trans (filterMap_ite _ _ f.pieces)

/-- The order in which closing pieces are offered (R39). -/

def ClosesBefore (a b : OpenPiece × Bool) : Prop :=
  0 < diff b.1.lead a.1.lead ∨ (b.1.lead = a.1.lead ∧ lowestLane a.1.runs < lowestLane b.1.runs)

/-- Closing pieces in the order of their offers (R39). -/
theorem closingOrder_eq {closing ps : List (OpenPiece × Bool)} (perm : closing.Perm ps) (sorted : closing.Pairwise ClosesBefore) :
    closingOrder ps = closing := by
  refine sortStable_eq perm (sorted.imp fun {a b} before => ?_)
  rcases before with pos | ⟨same, lower⟩
  · obtain ⟨ahead, behind⟩ := isBefore_of_pos pos
    have other : b.1.lead ≠ a.1.lead := fun same => by
      rw [same] at ahead behind
      exact Bool.false_ne_true (behind.symm.trans ahead)
    simp [ahead, behind, other]
  · have notLower : ¬lowestLane b.1.runs < lowestLane a.1.runs := by omega
    simp [same, lower, notLower, isBefore]

/-- A row taken, by its groups: the pieces left open, the predecessors, the tags drawn and the offers (R33 to R41). -/
theorem State.takeRow_of {s : State} {row : RowRecord} {groups : List (List LaneRun)} {joined opened all long : List OpenPiece}
    {closing : List (OpenPiece × Bool)} (isGroups : groupsOf (runsOf row) (s.former.pieces.map OpenPiece.runs ++ s.former.longRuns) = groups)
    (hJoined : s.former.joined row groups = joined) (hOpened : s.former.opened row groups = opened) (hAll : all = joined ++ opened)
    (hLong : long = all.filter fun p => decide (255 ≤ p.rows))
    (perm : closing.Perm ((s.former.ended groups).map (fun p => (p, false)) ++ long.map fun p => (p, true)))
    (sorted : closing.Pairwise ClosesBefore) :
    s.takeRow row = { s with former := { s.former with
      pieces := all.filter fun p => decide (p.rows < 255), longRuns := long.map OpenPiece.runs
      tag := s.former.tag + BitVec.ofNat 12 opened.length
      offers := closing.map fun x => x.1.record s.opts.r s.opts.tMetal x.2 } } := by
  have gained : (s.former.fates row groups).filterMap PieceFate.gained = joined := by
    rw [Former.fates, List.filterMap_map]
    exact hJoined
  have short : (all.filter fun p => !decide (longRows ≤ p.rows)) = all.filter fun p => decide (p.rows < 255) :=
    List.filter_congr fun p _ => by
      rw [← decide_not]
      exact decide_eq_decide.mpr not_le
  subst isGroups hOpened hLong
  have order := closingOrder_eq perm sorted
  rw [← s.former.fates_ended row] at order
  rw [State.takeRow_eq]
  dsimp only
  rw [gained, ← hAll, short, show longRows = 255 from rfl, order]

/-! ### The sums of a row, and of a merge (R36, R38) -/

/-- A sum that begins at a. -/
theorem foldl_add_eq {α β : Type} [AddCommMonoid β] (f : α → β) : ∀ (xs : List α) (a : β),
    xs.foldl (fun a x => a + f x) a = a + (xs.map f).sum
  | [], a => by simp
  | x :: xs, a => by rw [List.foldl_cons, foldl_add_eq f xs, List.map_cons, List.sum_cons, add_assoc]

/-- The row's sums added to a piece (R38). -/
theorem OpenPiece.addRow_eq (p : OpenPiece) (row : RowRecord) (g : List LaneRun) {lanes : List (Fin 32)} (hLanes : lanesOf g = lanes) :
    p.addRow row g = { p with
      lastRow := row.row, n := p.n + lanes.length, nc := p.nc + lanes.countP fun n => row.cells[n].blocked
      sumI := p.sumI + (lanes.map fun n => row.cells[n].ic).sum, sumQ := p.sumQ + (lanes.map fun n => row.cells[n].qc).sum
      sumLane := p.sumLane + (lanes.map fun n => n.val).sum
      first := lanes.foldl (fun a n => min a n.val) p.first, last := lanes.foldl (fun a n => max a n.val) p.last
      rows := p.rows + 1, repeated := p.repeated + if row.repeated then 1 else 0
      coilMark := p.coilMark || row.coilWeak, curtainMark := p.curtainMark || row.curtainFault
      edge := p.edge || lanes.any fun n => decide (n.val = 0 ∨ n.val = 31), runs := g } := by
  subst hLanes
  have edges : ((lanesOf g).any fun n => decide (n.val = 0) || decide (n.val = 31)) =
      (lanesOf g).any fun n => decide (n.val = 0 ∨ n.val = 31) := by simp only [Bool.decide_or]
  rw [OpenPiece.addRow, foldl_add_eq (fun n : Fin 32 => row.cells[n].ic), foldl_add_eq (fun n : Fin 32 => row.cells[n].qc),
    foldl_add_eq (fun n : Fin 32 => n.val), edges]
  rfl

/-- A piece that has taken over others (R36). -/
theorem foldl_takeOver : ∀ (ys : List OpenPiece) (x : OpenPiece), ys.foldl OpenPiece.takeOver x = { x with
    n := x.n + (ys.map OpenPiece.n).sum, nc := x.nc + (ys.map OpenPiece.nc).sum, sumI := x.sumI + (ys.map OpenPiece.sumI).sum
    sumQ := x.sumQ + (ys.map OpenPiece.sumQ).sum, sumLane := x.sumLane + (ys.map OpenPiece.sumLane).sum
    first := ys.foldl (fun a y => min a y.first) x.first, last := ys.foldl (fun a y => max a y.last) x.last
    edge := x.edge || ys.any OpenPiece.edge, continued := x.continued || ys.any OpenPiece.continued
    coilMark := x.coilMark || ys.any OpenPiece.coilMark, curtainMark := x.curtainMark || ys.any OpenPiece.curtainMark }
  | [], x => by simp
  | y :: ys, x => by
    rw [List.foldl_cons, foldl_takeOver ys]
    simp [OpenPiece.takeOver, add_assoc, Bool.or_assoc]

/-- A survivor and the pieces that merge into it, taken together (R36). -/
def OpenPiece.together (x : OpenPiece) (all : List OpenPiece) : OpenPiece :=
  { x with
    n := (all.map OpenPiece.n).sum, nc := (all.map OpenPiece.nc).sum, sumI := (all.map OpenPiece.sumI).sum
    sumQ := (all.map OpenPiece.sumQ).sum, sumLane := (all.map OpenPiece.sumLane).sum
    first := all.foldl (fun a y => min a y.first) x.first, last := all.foldl (fun a y => max a y.last) x.last
    edge := all.any OpenPiece.edge, continued := all.any OpenPiece.continued, coilMark := all.any OpenPiece.coilMark
    curtainMark := all.any OpenPiece.curtainMark }

/-- The survivor takes over the others, in whatever order they stand with it (R36). -/
theorem foldl_takeOver_eq_together {x : OpenPiece} {others all : List OpenPiece} (perm : all.Perm (x :: others)) :
    others.foldl OpenPiece.takeOver x = x.together all := by
  have mins : all.foldl (fun a y => min a y.first) x.first = others.foldl (fun a y => min a y.first) x.first := by
    have comm : RightCommutative fun (a : Nat) (y : OpenPiece) => min a y.first := ⟨fun a y z => by omega⟩
    rw [perm.foldl_eq, List.foldl_cons, min_self]
  have maxs : all.foldl (fun a y => max a y.last) x.last = others.foldl (fun a y => max a y.last) x.last := by
    have comm : RightCommutative fun (a : Nat) (y : OpenPiece) => max a y.last := ⟨fun a y z => by omega⟩
    rw [perm.foldl_eq, List.foldl_cons, max_self]
  rw [foldl_takeOver, OpenPiece.together, mins, maxs, (perm.map _).sum_eq, (perm.map _).sum_eq, (perm.map _).sum_eq,
    (perm.map _).sum_eq, (perm.map _).sum_eq, perm.any_eq, perm.any_eq, perm.any_eq, perm.any_eq]
  simp only [List.map_cons, List.sum_cons, List.any_cons]

/-! ### The survivor of a group (R36) -/

/-- A list with its places stands in their order. -/
theorem zipIdx_pairwise {α : Type} (xs : List α) : xs.zipIdx.Pairwise fun a b => a.2 < b.2 := by
  rw [← List.pairwise_map (f := Prod.snd) (R := (· < ·)), List.zipIdx_map_snd]
  exact List.pairwise_lt_range' ..

/-- The open pieces that a group contacts, with their places (R36). -/
def Former.met (f : Former) (g : List LaneRun) : List (OpenPiece × Nat) := f.pieces.zipIdx.filter fun x => touches g x.1.runs

/-- A piece has the earliest lead of those that a group contacts, or of equal leads was opened first (R36). -/
def Former.survives (f : Former) (g : List LaneRun) (x : OpenPiece × Nat) : Bool :=
  (f.met g).all fun y => decide (y.2 = x.2 ∨ 0 < diff y.1.lead x.1.lead ∨ (y.1.lead = x.1.lead ∧ x.2 < y.2))

section

variable {f : Former} {g : List LaneRun} {x y : OpenPiece × Nat}

/-- The pieces that a group contacts, split at one of them. -/
theorem Former.met_split (member : x ∈ f.met g) : ∃ before after, f.met g = before ++ x :: after ∧
    (∀ y ∈ before, y.2 < x.2) ∧ ∀ y ∈ after, x.2 < y.2 := by
  obtain ⟨before, after, split⟩ := List.append_of_mem member
  have sorted := (zipIdx_pairwise f.pieces).filter fun x => touches g x.1.runs
  rw [show f.pieces.zipIdx.filter _ = _ from split] at sorted
  obtain ⟨-, tail, between⟩ := List.pairwise_append.mp sorted
  exact ⟨before, after, split, fun y place => between y place x List.mem_cons_self,
    fun y place => List.rel_of_pairwise_cons tail place⟩

/-- The earliest of the pieces that a group contacts is its survivor (R36). -/
theorem Former.survivorOf_eq (member : x ∈ f.met g) (survives : f.survives g x = true) : survivorOf f.pieces g = some x.2 := by
  obtain ⟨before, after, split, early, late⟩ := Former.met_split member
  have earliest : ∀ y ∈ f.met g, y.2 = x.2 ∨ 0 < diff y.1.lead x.1.lead ∨ (y.1.lead = x.1.lead ∧ x.2 < y.2) := fun y place =>
    of_decide_eq_true (List.all_eq_true.mp survives y place)
  have best : pickBest (fun y x : OpenPiece × Nat => isBefore y.1.lead x.1.lead) (f.met g) = some x := by
    rw [split]
    refine pickBest_of_best (fun y place => ?_) (fun y place => ?_)
    · have behind := late y place
      rcases earliest y (by simp [split, place]) with same | pos | ⟨same, -⟩
      · omega
      · exact (isBefore_of_pos pos).2
      · rw [same]
        simp [isBefore]
    · have ahead := early y place
      rcases earliest y (by simp [split, place]) with same | pos | ⟨-, later⟩
      · omega
      · exact (isBefore_of_pos pos).1
      · omega
  exact congrArg (Option.map Prod.snd) best

/-- Two pieces of one place are one. -/
theorem Former.met_place (member : x ∈ f.met g) (member' : y ∈ f.met g) (same : x.2 = y.2) : x = y := by
  have here := List.mem_zipIdx_iff_getElem?.mp (List.mem_filter.mp member).1
  have there := List.mem_zipIdx_iff_getElem?.mp (List.mem_filter.mp member').1
  rw [same, there] at here
  exact Prod.ext (Option.some.inj here).symm same

/-- Which of the pieces that a group contacts survives (R36). -/
theorem Former.survivorOf_iff (settled : f.met g = [] ∨ ∃ x ∈ f.met g, f.survives g x = true) (member : x ∈ f.met g) :
    survivorOf f.pieces g = some x.2 ↔ f.survives g x = true := by
  rcases settled with none | ⟨y, member', survives⟩
  · rw [none] at member
    cases member
  · refine ⟨fun is => ?_, Former.survivorOf_eq member⟩
    rw [Former.survivorOf_eq member' survives] at is
    exact Former.met_place member member' (Option.some.inj is).symm ▸ survives

/-- The other pieces that a group contacts, beside one of them. -/
theorem Former.met_perm (member : x ∈ f.met g) : ((f.met g).map Prod.fst).Perm (x.1 ::
    (f.pieces.zipIdx.filter fun q => touches g q.1.runs && !(q.2 == x.2)).map Prod.fst) := by
  obtain ⟨before, after, split, early, late⟩ := Former.met_split member
  have others : (f.pieces.zipIdx.filter fun q => touches g q.1.runs && !(q.2 == x.2)) = before ++ after := by
    have twice : (f.pieces.zipIdx.filter fun q => touches g q.1.runs && !(q.2 == x.2)) = (f.met g).filter fun q => !(q.2 == x.2) := by
      rw [Former.met, List.filter_filter]
      simp only [Bool.and_comm]
    have keepsBefore : (before.filter fun q => !(q.2 == x.2)) = before := List.filter_eq_self.mpr fun y place => by
      have := early y place
      simp; omega
    have keepsAfter : (after.filter fun q => !(q.2 == x.2)) = after := List.filter_eq_self.mpr fun y place => by
      have := late y place
      simp; omega
    rw [twice, split, List.filter_append, List.filter_cons, keepsBefore, keepsAfter]
    simp
  rw [others, split, List.map_append, List.map_cons, List.map_append]
  exact List.perm_middle

end

/-- A piece that survives a group gains the row with what it has taken over (R36, R38). -/
def Former.gain (f : Former) (row : RowRecord) (g : List LaneRun) (x : OpenPiece) : OpenPiece :=
  ({ x.together ((f.met g).map Prod.fst) with
    continued := (x.together ((f.met g).map Prod.fst)).continued || f.afterLong g }).addRow row g

/-- The pieces that gain the row: of each group that contacts some, its survivor (R36). -/
theorem Former.joined_eq {f : Former} {row : RowRecord} {groups : List (List LaneRun)}
    (apart : ∀ g ∈ groups, ∀ g' ∈ groups, ∀ p ∈ f.pieces, touches g p.runs = true → touches g' p.runs = true → g' = g)
    (settled : ∀ g ∈ groups, f.met g = [] ∨ ∃ x ∈ f.met g, f.survives g x = true) :
    f.joined row groups = f.pieces.zipIdx.filterMap fun x =>
      (groups.find? fun g => touches g x.1.runs && f.survives g x).map fun g => f.gain row g x.1 := by
  refine List.filterMap_congr fun x place => ?_
  rw [Former.fateOf]
  cases found : groups.find? fun g => touches g x.1.runs with
  | none =>
    have none : (groups.find? fun g => touches g x.1.runs && f.survives g x) = .none :=
      List.find?_eq_none.mpr fun g inside both => List.find?_eq_none.mp found g inside (Bool.and_eq_true_iff.mp both).1
    rw [none]
    rfl
  | some g =>
    obtain ⟨contacts, before, after, split, passed⟩ := List.find?_eq_some_iff_append.mp found
    have inside : g ∈ groups := List.mem_of_find?_eq_some found
    have member : x ∈ f.met g := List.mem_filter.mpr ⟨place, contacts⟩
    have survivor := Former.survivorOf_iff (settled g inside) member
    cases survives : f.survives g x with
    | true =>
      have chosen : (groups.find? fun g => touches g x.1.runs && f.survives g x) = some g :=
        List.find?_eq_some_iff_append.mpr ⟨by rw [contacts, survives]; rfl, before, after, split, fun y early => by
          have := passed y early
          simp_all⟩
      dsimp only
      rw [if_pos (survivor.mpr survives), chosen, foldl_takeOver_eq_together (Former.met_perm member)]
      rfl
    | false =>
      have none : (groups.find? fun g => touches g x.1.runs && f.survives g x) = .none :=
        List.find?_eq_none.mpr fun g' inside' both => by
          obtain ⟨contacts', survives'⟩ := Bool.and_eq_true_iff.mp both
          have piece : x.1 ∈ f.pieces := List.fst_mem_of_mem_zipIdx place
          rw [apart g inside g' inside' x.1 piece contacts contacts', survives] at survives'
          cases survives'
      dsimp only
      rw [if_neg (fun is => Bool.false_ne_true (survives.symm.trans (survivor.mp is))), none]
      rfl

/-- The pieces a row opens: one for each group that contacts no open piece (R37). -/
theorem Former.opened_eq (f : Former) (row : RowRecord) (groups : List (List LaneRun)) : f.opened row groups =
    (groups.filter fun g => (f.met g).isEmpty).zipIdx.map fun x =>
      (newPiece (f.tag + BitVec.ofNat 12 x.2) row.row (f.afterLong x.1)).addRow row x.1 := by
  have none : (groups.filter fun g => !f.pieces.any fun p => touches g p.runs) = groups.filter fun g => (f.met g).isEmpty :=
    List.filter_congr fun g _ => by
      have places : f.pieces.any (fun p => touches g p.runs) = f.pieces.zipIdx.any fun x => touches g x.1.runs := by
        conv_lhs => rw [← List.zipIdx_map_fst 0 f.pieces, List.any_map]
        rfl
      rw [places, Former.met, Bool.eq_iff_iff]
      simp
  rw [Former.opened, none]

/-- The lanes of a group (R38). -/
theorem lanesOf_eq (g : List LaneRun) :
    lanesOf g = (List.finRange 32).filter fun n => g.any fun r => decide (r.lo ≤ n.val ∧ n.val ≤ r.hi) := by
  simp only [lanesOf, Bool.decide_and]

/-- A run contacts a holder's runs (R35). -/
theorem contactsAny_eq : (fun (r : LaneRun) (held : List LaneRun) => held.any fun h => decide (r.lo ≤ h.hi + 1 ∧ h.lo ≤ r.hi + 1)) =
    LaneRun.contactsAny := by
  funext r held
  simp only [LaneRun.contactsAny, LaneRun.contacts, Bool.decide_and]

/-- Groups of which no two contact one holder: a piece is contacted by one of them. -/
theorem group_unique {groups holders : List (List LaneRun)} {f : Former} (holds : ∀ p ∈ f.pieces, p.runs ∈ holders)
    (apart : groups.Pairwise fun g g' => ∀ held ∈ holders, ¬(touches g held = true ∧ touches g' held = true)) :
    ∀ g ∈ groups, ∀ g' ∈ groups, ∀ p ∈ f.pieces, touches g p.runs = true → touches g' p.runs = true → g' = g := by
  intro g inside g' inside' p piece contacts contacts'
  by_contra other
  have symm : Std.Symm fun g g' : List LaneRun => ∀ held ∈ holders, ¬(touches g held = true ∧ touches g' held = true) :=
    ⟨fun _ _ h held holds both => h held holds both.symm⟩
  exact apart.forall inside' inside other p.runs (holds p piece) ⟨contacts', contacts⟩

/-- Settles O18: the row's groups, the survivors, the pieces opened and the order of the closings. -/
theorem rowsJoinAndMerge : Obligations.RowsJoinAndMerge := by
  unfold Obligations.RowsJoinAndMerge
  intro l left row rest groups closing s e he running rows offers range sep cover each order meets
  have meetsEq : meets = LaneRun.contactsAny := contactsAny_eq
  clear_value meets
  subst meetsEq
  intro holders contacts met survives merged gains new joined opened all ended long lowest apart chains settled perm sorted
  let u : State := { e with former := { e.former with rows := rest } }
  have lanes := fun g => lanesOf_eq g
  have hJoined : u.former.joined row groups = joined := by
    refine (Former.joined_eq (f := u.former) (group_unique (fun p piece => ?_) apart) settled).trans
      (List.filterMap_congr fun x _ => ?_)
    · exact List.mem_append_left _ (List.mem_map_of_mem piece)
    · refine congrArg (fun f => Option.map f _) (funext fun g => ?_)
      exact OpenPiece.addRow_eq _ row g (lanes g)
  have hOpened : u.former.opened row groups = opened := by
    rw [Former.opened_eq]
    exact List.map_congr_left fun x _ => OpenPiece.addRow_eq _ row x.1 (lanes x.1)
  refine exec_running he running rfl rfl ?_
  show e.nextRow left = _
  rw [State.nextRow, offers, rows]
  exact congrArg (fun t => State.makeOffers t left)
    (State.takeRow_of (s := u) (groupsOf_runsOf range sep cover each order apart chains) hJoined hOpened rfl rfl perm sorted)

end Sys2Proof.Machine
end

section
/-! PROOFS. A row whose runs share no holder: each run is a group. -/

namespace Sys2Proof.Machine

/-! ### The lanes of one run (R38) -/

/-- The lanes of a run. -/
def LaneRun.lanes (r : LaneRun) : List (Fin 32) := (List.finRange 32).filter fun n => decide (r.lo ≤ n.val ∧ n.val ≤ r.hi)

/-- The lanes of a group of one run. -/
theorem lanesOf_single (r : LaneRun) : lanesOf [r] = r.lanes := by
  rw [lanesOf_eq]
  simp only [List.any_cons, List.any_nil, Bool.or_false]
  rfl

/-- A group of one run contacts what its run contacts. -/
theorem touches_single (r : LaneRun) : touches [r] = r.contactsAny := by
  funext held
  simp [touches]

section

variable {r : LaneRun} (low : r.lo ≤ r.hi) (high : r.hi < 32)

include low high

/-- The lanes of a run, as numbers. -/
theorem LaneRun.lanes_val : r.lanes.map Fin.val = List.range' r.lo (r.hi - r.lo + 1) := by
  have member : ∀ k, k ∈ r.lanes.map Fin.val ↔ k ∈ List.range' r.lo (r.hi - r.lo + 1) := fun k => by
    rw [List.mem_map, List.mem_range'_1]
    constructor
    · rintro ⟨n, inside, rfl⟩
      have := of_decide_eq_true (List.mem_filter.mp inside).2
      omega
    · intro inside
      exact ⟨⟨k, by omega⟩, List.mem_filter.mpr ⟨List.mem_finRange _, decide_eq_true (by dsimp only; omega)⟩, rfl⟩
  have rising : (r.lanes.map Fin.val).Pairwise (· < ·) := List.pairwise_map.mpr ((List.pairwise_lt_finRange 32).filter _)
  have rising' : (List.range' r.lo (r.hi - r.lo + 1)).Pairwise (· < ·) := List.pairwise_lt_range' ..
  refine List.Perm.eq_of_pairwise (fun a b _ _ h h' => absurd h (Nat.lt_asymm h')) rising rising' ?_
  exact (List.perm_ext_iff_of_nodup (rising.imp Nat.ne_of_lt) (rising'.imp Nat.ne_of_lt)).mpr member

/-- The number of lanes of a run. -/
theorem LaneRun.length_lanes : r.lanes.length = r.hi - r.lo + 1 := by
  rw [← List.length_map (f := Fin.val), LaneRun.lanes_val low high, List.length_range']

/-- The first lane of a run and lanes before it. -/
theorem LaneRun.foldl_min_lanes (a : Nat) : r.lanes.foldl (fun a n => min a n.val) a = min a r.lo := by
  have least : ∀ k, (List.range' r.lo (k + 1)).foldl min a = min a r.lo := fun k => by
    induction k with
    | zero => rfl
    | succ k ih =>
      rw [List.range'_concat, List.foldl_append, ih]
      simp only [List.foldl_cons, List.foldl_nil]
      omega
  rw [← least (r.hi - r.lo), ← LaneRun.lanes_val low high, List.foldl_map]

/-- The last lane of a run and lanes behind it. -/
theorem LaneRun.foldl_max_lanes (a : Nat) : r.lanes.foldl (fun a n => max a n.val) a = max a r.hi := by
  have most : ∀ k, (List.range' r.lo (k + 1)).foldl max a = max a (r.lo + k) := fun k => by
    induction k with
    | zero => rfl
    | succ k ih =>
      rw [List.range'_concat, List.foldl_append, ih]
      simp only [List.foldl_cons, List.foldl_nil]
      omega
  rw [show r.hi = r.lo + (r.hi - r.lo) by omega, ← most (r.hi - r.lo), ← LaneRun.lanes_val low high, List.foldl_map]

/-- A run reaches the edge when it begins at lane 0 or ends at lane 31. -/
theorem LaneRun.any_edge : (r.lanes.any fun n => decide (n.val = 0 ∨ n.val = 31)) = decide (r.lo = 0 ∨ r.hi = 31) := by
  rw [Bool.eq_iff_iff, List.any_eq_true, decide_eq_true_eq]
  constructor
  · rintro ⟨n, inside, edge⟩
    have within := of_decide_eq_true (List.mem_filter.mp inside).2
    have edge := of_decide_eq_true edge
    omega
  · rintro (atStart | atEnd)
    · exact ⟨0, List.mem_filter.mpr ⟨List.mem_finRange _, decide_eq_true ⟨by simp [atStart], by simp⟩⟩, by decide⟩
    · exact ⟨31, List.mem_filter.mpr ⟨List.mem_finRange _, decide_eq_true ⟨by simp; omega, by simp [atEnd]⟩⟩, by decide⟩

/-- The row's sums of one run added to a piece (R38). -/
theorem OpenPiece.addRow_single (p : OpenPiece) (row : RowRecord) : p.addRow row [r] = { p with
    lastRow := row.row, n := p.n + (r.hi - r.lo + 1), nc := p.nc + r.lanes.countP fun n => row.cells[n].blocked
    sumI := p.sumI + (r.lanes.map fun n => row.cells[n].ic).sum, sumQ := p.sumQ + (r.lanes.map fun n => row.cells[n].qc).sum
    sumLane := p.sumLane + (r.lanes.map fun n => n.val).sum, first := min p.first r.lo, last := max p.last r.hi
    rows := p.rows + 1, repeated := p.repeated + if row.repeated then 1 else 0
    coilMark := p.coilMark || row.coilWeak, curtainMark := p.curtainMark || row.curtainFault
    edge := p.edge || decide (r.lo = 0 ∨ r.hi = 31), runs := [r] } := by
  rw [OpenPiece.addRow_eq p row [r] (lanesOf_single r), LaneRun.length_lanes low high, LaneRun.foldl_min_lanes low high,
    LaneRun.foldl_max_lanes low high, LaneRun.any_edge low high]

end

/-! ### Single runs as groups (R35, R36) -/

section

variable {f : Former} {runs : List LaneRun}

/-- One piece alone is met by a run, and survives (R36). -/
theorem Former.met_single {r : LaneRun} (one : (f.pieces.countP fun p => r.contactsAny p.runs) ≤ 1) :
    f.met [r] = [] ∨ ∃ x, f.met [r] = [x] ∧ f.survives [r] x = true := by
  have few : (f.met [r]).length ≤ 1 := by
    rw [Former.met, ← List.countP_eq_length_filter, touches_single]
    have places : f.pieces.zipIdx.countP (fun x => r.contactsAny x.1.runs) = f.pieces.countP fun p => r.contactsAny p.runs := by
      conv_rhs => rw [← List.zipIdx_map_fst 0 f.pieces, List.countP_map]
      rfl
    rw [places]
    exact one
  match met : f.met [r] with
  | [] => exact .inl rfl
  | [x] => exact .inr ⟨x, rfl, by rw [Former.survives, met]; simp⟩
  | _ :: _ :: _ =>
    rw [met] at few
    simp at few

/-- A piece taken together with itself alone. -/
theorem OpenPiece.together_single (x : OpenPiece) : x.together [x] = x := by simp [OpenPiece.together]

end

/-- A piece that gains one run gains the row's sums of it (R36, R38). -/
theorem Former.gain_single {f : Former} {r : LaneRun} {x : OpenPiece × Nat} (row : RowRecord) (alone : f.met [r] = [x]) :
    f.gain row [r] x.1 = ({ x.1 with continued := x.1.continued || f.longRuns.any r.contactsAny }).addRow row [r] := by
  rw [Former.gain, alone, List.map_singleton, OpenPiece.together_single, Former.afterLong, touches_single]

/-- The pieces that gain runs of a row whose runs share no holder (R36). -/
theorem Former.joined_single {f : Former} {row : RowRecord} {runs : List LaneRun}
    (apart : ∀ g ∈ runs.map (fun r => [r]), ∀ g' ∈ runs.map (fun r => [r]), ∀ p ∈ f.pieces,
      touches g p.runs = true → touches g' p.runs = true → g' = g)
    (one : ∀ r ∈ runs, (f.pieces.countP fun p => r.contactsAny p.runs) ≤ 1) :
    f.joined row (runs.map fun r => [r]) = f.pieces.filterMap fun p =>
      (runs.find? fun r => r.contactsAny p.runs).map fun r =>
        ({ p with continued := p.continued || f.longRuns.any r.contactsAny }).addRow row [r] := by
  refine (Former.joined_eq apart fun g inside => ?_).trans (Eq.trans (List.filterMap_congr fun x place => ?_)
    (filterMap_zipIdx (fun _ => rfl) f.pieces))
  · obtain ⟨r, member, rfl⟩ := List.mem_map.mp inside
    exact (Former.met_single (one r member)).imp_right fun ⟨x, met, survives⟩ => ⟨x, by simp [met], survives⟩
  · have alone : ∀ r ∈ runs, r.contactsAny x.1.runs = true → f.met [r] = [x] ∧ f.survives [r] x = true := fun r member contacts => by
      have meets : x ∈ f.met [r] := List.mem_filter.mpr ⟨place, by rw [touches_single]; exact contacts⟩
      rcases Former.met_single (one r member) with none | ⟨y, met, survives⟩
      · rw [none] at meets
        cases meets
      · rw [met] at meets
        obtain rfl := List.mem_singleton.mp meets
        exact ⟨met, survives⟩
    have chosen : ((runs.map fun r => [r]).find? fun g => touches g x.1.runs && f.survives g x) =
        (runs.find? fun r => r.contactsAny x.1.runs).map fun r => [r] := by
      rw [List.find?_map]
      refine congrArg (Option.map _) (List.find?_congr fun r member => ?_)
      show (touches [r] x.1.runs && f.survives [r] x) = r.contactsAny x.1.runs
      rw [touches_single]
      cases contacts : r.contactsAny x.1.runs with
      | true => exact (alone r member contacts).2
      | false => rfl
    rw [chosen]
    cases found : runs.find? fun r => r.contactsAny x.1.runs with
    | none => rfl
    | some r =>
      exact congrArg some (Former.gain_single row (alone r (List.mem_of_find?_eq_some found)
        (List.find?_some (p := fun r : LaneRun => r.contactsAny x.1.runs) found)).1)

/-- The pieces opened by a row whose runs share no holder (R37). -/
theorem Former.opened_single (f : Former) (row : RowRecord) (runs : List LaneRun) : f.opened row (runs.map fun r => [r]) =
    (runs.filter fun r => !f.pieces.any fun p => r.contactsAny p.runs).zipIdx.map fun x =>
      (newPiece (f.tag + BitVec.ofNat 12 x.2) row.row (f.longRuns.any x.1.contactsAny)).addRow row [x.1] := by
  have free : (runs.map fun r => [r]).filter (fun g => !f.pieces.any fun p => touches g p.runs) =
      (runs.filter fun r => !f.pieces.any fun p => r.contactsAny p.runs).map fun r => [r] := by
    rw [List.filter_map]
    refine congrArg (List.map _) (List.filter_congr fun r _ => ?_)
    simp only [Function.comp, touches_single]
  rw [Former.opened, free, List.zipIdx_map, List.map_map]
  refine List.map_congr_left fun x _ => ?_
  show (newPiece (f.tag + BitVec.ofNat 12 x.2) row.row (f.longRuns.any (touches [x.1]))).addRow row [x.1] = _
  rw [touches_single]

/-- Settles O17: each run is a group, so that no pieces merge. -/
theorem rowTaken : Obligations.RowTaken := by
  unfold Obligations.RowTaken
  intro l left row rest runs closing s e he running rows offers sep range cover meets
  have meetsEq : meets = LaneRun.contactsAny := contactsAny_eq
  clear_value meets
  subst meetsEq
  intro longed lanes gains opens joined free opened all ended long lowest noShare one perm sorted
  let u : State := { e with former := { e.former with rows := rest } }
  have flat : (runs.map fun r => [r]).flatten = runs := by
    rw [← List.flatMap_def]
    exact List.flatMap_singleton' runs
  have apart : (runs.map fun r => [r]).Pairwise fun g g' => ∀ held ∈ e.former.pieces.map OpenPiece.runs ++ e.former.longRuns,
      ¬(touches g held = true ∧ touches g' held = true) := by
    refine List.pairwise_map.mpr (sep.imp_of_mem fun {r r'} member member' far held holds both => ?_)
    rw [touches_single, touches_single] at both
    have same := noShare r member r' member' held holds both.1 both.2
    have := (range r member).1
    rw [← same] at far
    omega
  have isGroups : groupsOf (runsOf row) (e.former.pieces.map OpenPiece.runs ++ e.former.longRuns) = runs.map fun r => [r] := by
    refine groupsOf_runsOf (by rw [flat]; exact range) (by rw [flat]; exact sep.imp Or.inl) (by rw [flat]; exact cover)
      (fun g inside => ?_) ?_ apart (fun g inside part inPart notAll => ?_)
    · obtain ⟨r, -, rfl⟩ := List.mem_map.mp inside
      simp
    · refine List.pairwise_map.mpr (sep.imp_of_mem fun {r r'} member _ far => ?_)
      have := (range r member).1
      simp
      omega
    · obtain ⟨r, -, rfl⟩ := List.mem_map.mp inside
      simp_all
  have hJoined : u.former.joined row (runs.map fun r => [r]) = joined := by
    refine (Former.joined_single (f := u.former) (group_unique (fun p piece => ?_) apart) one).trans
      (List.filterMap_congr fun p _ => ?_)
    · exact List.mem_append_left _ (List.mem_map_of_mem piece)
    · cases found : runs.find? fun r => r.contactsAny p.runs with
      | none => rfl
      | some r =>
        obtain ⟨low, high⟩ := range r (List.mem_of_find?_eq_some found)
        exact congrArg some (OpenPiece.addRow_single low high _ row)
  have hOpened : u.former.opened row (runs.map fun r => [r]) = opened := by
    rw [Former.opened_single]
    refine List.map_congr_left fun x place => ?_
    obtain ⟨low, high⟩ := range x.1 (List.mem_filter.mp (List.fst_mem_of_mem_zipIdx place)).1
    have first : min 31 x.1.lo = x.1.lo := min_eq_right (by omega)
    have last : max 0 x.1.hi = x.1.hi := max_eq_right (Nat.zero_le _)
    refine (OpenPiece.addRow_single low high _ row).trans ?_
    simp only [newPiece, zero_add, Bool.false_or, first, last]
    rfl

  have hEnded : u.former.ended (runs.map fun r => [r]) = ended := by
    refine List.filter_congr fun p _ => ?_
    rw [List.any_map]
    simp only [Function.comp_def, touches_single]
  refine exec_running he running rfl rfl ?_
  show e.nextRow left = _
  rw [State.nextRow, offers, rows]
  exact congrArg (fun t => State.makeOffers t left)
    (State.takeRow_of (s := u) isGroups hJoined hOpened rfl rfl (by rw [hEnded]; exact perm) sorted)

end Sys2Proof.Machine
end
